-- ==== Sys2Proof/Word.lean ====
section
/-! DEFINITION. The word types of RISC42 (00_scope.md rule R5: 32 bit data, 16 bit instruction words)
and the register number (10_state.md rule R10: a 4 bit field of the instruction). -/

namespace Sys2Proof

/-- A general register, a data word, an offset: 32 bits (rule R5). -/
abbrev Word := BitVec 32

/-- One instruction word or extension word: 16 bits (rules R5, R70). -/
abbrev Word16 := BitVec 16

/-- One byte of data memory (rule R41). -/
abbrev Byte := BitVec 8

/-- A register number: "A register is named by a 4 bit field of the instruction" (rule R10). -/
abbrev Reg := BitVec 4

/-- An instruction address: the 28 bit byte address held in `pc[27:0]` (rule R17). -/
abbrev CodeAddr := BitVec 28

/-- The number of a hardware task context, 0 to 15 (rules R26, R245). -/
abbrev TaskNo := Fin 16

end Sys2Proof
end

