-- ==== Sys2Proof/Syntax.lean ====
section
/-! DEFINITION. The instructions of RISC42 as syntax (30_encoding.md rules R70 to R82): one constructor
of `Instr` per row of spec/opcode_table.json. Encodings are in Decode.lean, meanings in Machine/. -/

namespace Sys2Proof

/-- The tests of a condition, `w[11:9]` (40_branch_skip.md rule R100). -/
inductive CondTest
  /-- 000: Z -/
  | zero
  /-- 001: C -/
  | carry
  /-- 010: N -/
  | negative
  /-- 011: V -/
  | overflow
  /-- 100: N ^ V -/
  | less
  /-- 101: Z = 1 or (N ^ V) -/
  | lessOrEqual
  /-- 110: Z = 1 or C = 0 -/
  | lowerOrSame
  /-- 111: true -/
  | always
  deriving DecidableEq, Repr

/-- A condition: a test and the polarity bit `w[8]`; it holds when the test equals the polarity (rule R100). -/
structure Cond where
  test : CondTest
  polarity : Bool
  deriving DecidableEq, Repr

/-- An immediate operand (rule R76). The two extension words of a 32 bit immediate are kept in fetch
order; which of them is the high half is the parameter IMM32_ORDER, applied when the value is taken. -/
inductive Imm
  /-- the 4 bit immediate; only 0 to 13 are values (14 and 15 are the escapes) -/
  | short (v : BitVec 4)
  /-- the field is 14 and one extension word follows -/
  | word (e : Word16)
  /-- the field is 15 and two extension words follow -/
  | long (first second : Word16)
  deriving DecidableEq, Repr

/-- The source or offset operand: a register when `#` = 0, an immediate when `#` = 1 (rule R75). -/
inductive Src
  | reg (r : Reg)
  | imm (i : Imm)
  deriving DecidableEq, Repr

/-- The MATH operations, in counting order of the bits A N C (rule R79). -/
inductive MathOp
  | mov | inc | not | neg | add | adc | sbb | sub
  deriving DecidableEq, Repr

/-- The SHIFT operations, in counting order of the bits M S L (rule R79, 90_conflicts.md C4). -/
inductive ShiftOp
  | shr | shl | asr | rot | div | mul | dvs | mls
  deriving DecidableEq, Repr

/-- The LOGIC operations, in counting order of the bits A N M (rule R79). -/
inductive LogicOp
  | ior | xor | nor | eqv | and | ani | nnd | nai
  deriving DecidableEq, Repr

/-- An operation that leaves C and V a draw: `op` of `FlagsCV(op, a, s, r)` (rules R159, R179). -/
inductive FlagOp
  | shift (op : ShiftOp)
  | logic (op : LogicOp)
  deriving DecidableEq, Repr

/-- The code of an extended instruction, as `Coproc` takes it (45_jumpl_send_extended.md rule R217):
0 to 13, or (14, extension word). -/
inductive CoprocCode
  | short (code : BitVec 4)
  | ext (e : Word16)
  deriving DecidableEq, Repr

/-- The instructions, one constructor per row of spec/opcode_table.json. A name that ends in `I` is the
`#` form, a name that begins with `k` is the cascade form. Fields stand in the order of the encoding:
dest then source; base, reg (or savePC, dest), offset. The unused dest field of KMOV, KINC, KNOT and KNEG
(rule R132) is kept. -/
inductive Instr
  /-- SKIP (R103) -/
  | skip (cond : Cond) (skips : BitVec 8)
  /-- BRANCH (R101) -/
  | branch (cond : Cond) (offset : BitVec 8)
  /-- MOV (R123) -/
  | mov (dest : Reg) (source : Reg)
  /-- MOV# (R123) -/
  | movI (dest : Reg) (imm : Imm)
  /-- KMOV (R123, R131) -/
  | kmov (dest : Reg) (source : Reg)
  /-- KMOV# (R123, R131) -/
  | kmovI (dest : Reg) (imm : Imm)
  /-- INC (R124) -/
  | inc (dest : Reg) (source : Reg)
  /-- INC# (R124) -/
  | incI (dest : Reg) (imm : Imm)
  /-- KINC (R124, R131) -/
  | kinc (dest : Reg) (source : Reg)
  /-- KINC# (R124, R131) -/
  | kincI (dest : Reg) (imm : Imm)
  /-- NOT (R125) -/
  | not (dest : Reg) (source : Reg)
  /-- NOT# (R125) -/
  | notI (dest : Reg) (imm : Imm)
  /-- KNOT (R125, R131) -/
  | knot (dest : Reg) (source : Reg)
  /-- KNOT# (R125, R131) -/
  | knotI (dest : Reg) (imm : Imm)
  /-- NEG (R126) -/
  | neg (dest : Reg) (source : Reg)
  /-- NEG# (R126) -/
  | negI (dest : Reg) (imm : Imm)
  /-- KNEG (R126, R131) -/
  | kneg (dest : Reg) (source : Reg)
  /-- KNEG# (R126, R131) -/
  | knegI (dest : Reg) (imm : Imm)
  /-- ADD (R127) -/
  | add (dest : Reg) (source : Reg)
  /-- ADD# (R127) -/
  | addI (dest : Reg) (imm : Imm)
  /-- KADD (R127, R131) -/
  | kadd (dest : Reg) (source : Reg)
  /-- KADD# (R127, R131) -/
  | kaddI (dest : Reg) (imm : Imm)
  /-- ADC (R128) -/
  | adc (dest : Reg) (source : Reg)
  /-- ADC# (R128) -/
  | adcI (dest : Reg) (imm : Imm)
  /-- KADC (R128, R131) -/
  | kadc (dest : Reg) (source : Reg)
  /-- KADC# (R128, R131) -/
  | kadcI (dest : Reg) (imm : Imm)
  /-- SBB (R129) -/
  | sbb (dest : Reg) (source : Reg)
  /-- SBB# (R129) -/
  | sbbI (dest : Reg) (imm : Imm)
  /-- KSBB (R129, R131) -/
  | ksbb (dest : Reg) (source : Reg)
  /-- KSBB# (R129, R131) -/
  | ksbbI (dest : Reg) (imm : Imm)
  /-- SUB (R130) -/
  | sub (dest : Reg) (source : Reg)
  /-- SUB# (R130) -/
  | subI (dest : Reg) (imm : Imm)
  /-- KSUB (R130, R131) -/
  | ksub (dest : Reg) (source : Reg)
  /-- KSUB# (R130, R131) -/
  | ksubI (dest : Reg) (imm : Imm)
  /-- SHR (R151) -/
  | shr (dest : Reg) (source : Reg)
  /-- SHR# (R151) -/
  | shrI (dest : Reg) (imm : Imm)
  /-- KSHR (R151, R131) -/
  | kshr (dest : Reg) (source : Reg)
  /-- KSHR# (R151, R131) -/
  | kshrI (dest : Reg) (imm : Imm)
  /-- SHL (R152) -/
  | shl (dest : Reg) (source : Reg)
  /-- SHL# (R152) -/
  | shlI (dest : Reg) (imm : Imm)
  /-- KSHL (R152, R131) -/
  | kshl (dest : Reg) (source : Reg)
  /-- KSHL# (R152, R131) -/
  | kshlI (dest : Reg) (imm : Imm)
  /-- ASR (R153) -/
  | asr (dest : Reg) (source : Reg)
  /-- ASR# (R153) -/
  | asrI (dest : Reg) (imm : Imm)
  /-- KASR (R153, R131) -/
  | kasr (dest : Reg) (source : Reg)
  /-- KASR# (R153, R131) -/
  | kasrI (dest : Reg) (imm : Imm)
  /-- ROT (R154) -/
  | rot (dest : Reg) (source : Reg)
  /-- ROT# (R154) -/
  | rotI (dest : Reg) (imm : Imm)
  /-- KROT (R154, R131) -/
  | krot (dest : Reg) (source : Reg)
  /-- KROT# (R154, R131) -/
  | krotI (dest : Reg) (imm : Imm)
  /-- DIV (R155) -/
  | div (dest : Reg) (source : Reg)
  /-- DIV# (R155) -/
  | divI (dest : Reg) (imm : Imm)
  /-- KDIV (R155, R131) -/
  | kdiv (dest : Reg) (source : Reg)
  /-- KDIV# (R155, R131) -/
  | kdivI (dest : Reg) (imm : Imm)
  /-- MUL (R156) -/
  | mul (dest : Reg) (source : Reg)
  /-- MUL# (R156) -/
  | mulI (dest : Reg) (imm : Imm)
  /-- KMUL (R156, R131) -/
  | kmul (dest : Reg) (source : Reg)
  /-- KMUL# (R156, R131) -/
  | kmulI (dest : Reg) (imm : Imm)
  /-- DVS (R157) -/
  | dvs (dest : Reg) (source : Reg)
  /-- DVS# (R157) -/
  | dvsI (dest : Reg) (imm : Imm)
  /-- KDVS (R157, R131) -/
  | kdvs (dest : Reg) (source : Reg)
  /-- KDVS# (R157, R131) -/
  | kdvsI (dest : Reg) (imm : Imm)
  /-- MLS (R158) -/
  | mls (dest : Reg) (source : Reg)
  /-- MLS# (R158) -/
  | mlsI (dest : Reg) (imm : Imm)
  /-- KMLS (R158, R131) -/
  | kmls (dest : Reg) (source : Reg)
  /-- KMLS# (R158, R131) -/
  | kmlsI (dest : Reg) (imm : Imm)
  /-- IOR (R171) -/
  | ior (dest : Reg) (source : Reg)
  /-- IOR# (R171) -/
  | iorI (dest : Reg) (imm : Imm)
  /-- KIOR (R171, R131) -/
  | kior (dest : Reg) (source : Reg)
  /-- KIOR# (R171, R131) -/
  | kiorI (dest : Reg) (imm : Imm)
  /-- XOR (R172) -/
  | xor (dest : Reg) (source : Reg)
  /-- XOR# (R172) -/
  | xorI (dest : Reg) (imm : Imm)
  /-- KXOR (R172, R131) -/
  | kxor (dest : Reg) (source : Reg)
  /-- KXOR# (R172, R131) -/
  | kxorI (dest : Reg) (imm : Imm)
  /-- NOR (R173) -/
  | nor (dest : Reg) (source : Reg)
  /-- NOR# (R173) -/
  | norI (dest : Reg) (imm : Imm)
  /-- KNOR (R173, R131) -/
  | knor (dest : Reg) (source : Reg)
  /-- KNOR# (R173, R131) -/
  | knorI (dest : Reg) (imm : Imm)
  /-- EQV (R174) -/
  | eqv (dest : Reg) (source : Reg)
  /-- EQV# (R174) -/
  | eqvI (dest : Reg) (imm : Imm)
  /-- KEQV (R174, R131) -/
  | keqv (dest : Reg) (source : Reg)
  /-- KEQV# (R174, R131) -/
  | keqvI (dest : Reg) (imm : Imm)
  /-- AND (R175) -/
  | and (dest : Reg) (source : Reg)
  /-- AND# (R175) -/
  | andI (dest : Reg) (imm : Imm)
  /-- KAND (R175, R131) -/
  | kand (dest : Reg) (source : Reg)
  /-- KAND# (R175, R131) -/
  | kandI (dest : Reg) (imm : Imm)
  /-- ANI (R176) -/
  | ani (dest : Reg) (source : Reg)
  /-- ANI# (R176) -/
  | aniI (dest : Reg) (imm : Imm)
  /-- KANI (R176, R131) -/
  | kani (dest : Reg) (source : Reg)
  /-- KANI# (R176, R131) -/
  | kaniI (dest : Reg) (imm : Imm)
  /-- NND (R177) -/
  | nnd (dest : Reg) (source : Reg)
  /-- NND# (R177) -/
  | nndI (dest : Reg) (imm : Imm)
  /-- KNND (R177, R131) -/
  | knnd (dest : Reg) (source : Reg)
  /-- KNND# (R177, R131) -/
  | knndI (dest : Reg) (imm : Imm)
  /-- NAI (R178) -/
  | nai (dest : Reg) (source : Reg)
  /-- NAI# (R178) -/
  | naiI (dest : Reg) (imm : Imm)
  /-- KNAI (R178, R131) -/
  | knai (dest : Reg) (source : Reg)
  /-- KNAI# (R178, R131) -/
  | knaiI (dest : Reg) (imm : Imm)
  /-- JUMPL (R210) -/
  | jumpl (base savePC offset : Reg)
  /-- FADD (R219) -/
  | fadd (base dest : Reg)
  /-- FSUB (R220) -/
  | fsub (base dest : Reg)
  /-- FMUL (R221) -/
  | fmul (base dest : Reg)
  /-- FDIV (R222) -/
  | fdiv (base dest : Reg)
  /-- STK (R223) -/
  | stk (source dest : Reg)
  /-- RTN (R225) -/
  | rtn (source dest : Reg)
  /-- EXT_RESERVED_6 (R229) -/
  | extReserved6 (base dest : Reg)
  /-- EXT_RESERVED_7 (R229) -/
  | extReserved7 (base dest : Reg)
  /-- EXT_RESERVED_8 (R229) -/
  | extReserved8 (base dest : Reg)
  /-- EXT_RESERVED_9 (R229) -/
  | extReserved9 (base dest : Reg)
  /-- EXT_RESERVED_A (R229) -/
  | extReservedA (base dest : Reg)
  /-- EXT_RESERVED_B (R229) -/
  | extReservedB (base dest : Reg)
  /-- TADD (R226) -/
  | tadd (base dest : Reg)
  /-- TSUB (R227) -/
  | tsub (base dest : Reg)
  /-- EXT16: a 16 bit extended instruction, its opcode in the extension word (R228) -/
  | ext16 (base dest : Reg) (ext : Word16)
  /-- JUMPL# with its two extension words in fetch order (R230) -/
  | jumplI (base savePC : Reg) (first second : Word16)
  /-- STB (R193) -/
  | stb (base reg offset : Reg)
  /-- STB# (R193) -/
  | stbI (base reg : Reg) (imm : Imm)
  /-- LD (R191) -/
  | ld (base reg offset : Reg)
  /-- LD# (R191) -/
  | ldI (base reg : Reg) (imm : Imm)
  /-- ST (R192) -/
  | st (base reg offset : Reg)
  /-- ST# (R192) -/
  | stI (base reg : Reg) (imm : Imm)
  deriving DecidableEq, Repr

end Sys2Proof
end

