-- ==== Sys2Proof/Config.lean ====
section
/-! DEFINITION. What the spec leaves open (00_scope.md rule R6). The parameters that are plain data are the fields
of `Config`, which State carries unchanged, so that a statement about every state is a statement about every value of
them. The parameters that are functions with no default are constants with no body: nothing can be proved of their
values (DESIGN CHOICE, log entry 1; the free values are log entry 2). -/

namespace Sys2Proof

/-- PC_VISIBLE: the PC that BRANCH adds to and JUMPL saves (decision D1). -/
inductive PcVisible
  /-- the address of the instruction's first word (the spec's default) -/
  | current
  /-- the address after the instruction and its extension words -/
  | next
  deriving DecidableEq, Repr

/-- BRANCH_SCALE: bytes per unit of the BRANCH offset (decision D2). -/
inductive BranchScale
  /-- 1 (the spec's default) -/
  | one
  /-- 2 -/
  | two
  deriving DecidableEq, Repr

/-- IMM32_ORDER: which extension word of a 32 bit immediate holds the low half (decision D10). -/
inductive Imm32Order
  /-- the first one (the spec's default) -/
  | lowFirst
  /-- the second one -/
  | highFirst
  deriving DecidableEq, Repr

/-- BYTE_ORDER (decision D11). -/
inductive ByteOrder
  /-- the spec's default -/
  | little
  | big
  deriving DecidableEq, Repr

/-- A function parameter for which the spec names a default: that default, or any other function. -/
inductive OpenFn
  | specDefault
  | supplied
  deriving DecidableEq, Repr

/-- A run of data addresses that exist: the offsets `lo` to `lo + size - 1` of the object part `obj`. -/
structure Region where
  obj : Word
  lo : Nat
  size : Nat
  deriving DecidableEq, Repr

/-- Valid: which data addresses exist, "the launch's `Valid` predicate" (20_memory.md rule R41, decision D23). -/
inductive ValidMap
  | everywhere
  | only (regions : List Region)
  deriving DecidableEq, Repr

/-- Which opcodes of 16 bit extended instructions the coprocessor gives a meaning (rule R228). -/
inductive ExtCodes
  | noCode
  | everyCode
  | only (codes : List Word16)
  deriving DecidableEq, Repr

/-- Whether the launch supplies a function that has no default (StkReload). -/
inductive Supply
  | absent
  | supplied
  deriving DecidableEq, Repr

/-- Whether a cascade instruction may directly follow a cascade instruction (rule R134). -/
inductive ChainRule
  /-- refused: this spec's decision D15 -/
  | refuse
  /-- allowed, with the meaning rule R134 says the sequence would have "If it were" -/
  | allow
  deriving DecidableEq, Repr

/-- The launch parameters of rule R6 that are plain data. No instruction changes them. -/
structure Config where
  pcVisible : PcVisible
  branchScale : BranchScale
  /-- SKIP_CLEAR_UNTAKEN: whether a BRANCH whose condition is false clears the skip bits (decision D7) -/
  skipClearUntaken : Bool
  imm32Order : Imm32Order
  byteOrder : ByteOrder
  /-- LdFill (decision D22) -/
  ldFill : OpenFn
  /-- TaskVector (decision D19) -/
  taskVector : OpenFn
  /-- TaskOfRef (decision D20) -/
  taskOfRef : OpenFn
  /-- Valid (decision D23) -/
  valid : ValidMap
  /-- REGMEM_WORDS / 16: how many blocks of 16 words register memory has, at most 1024 (rules R5, R13) -/
  regBlocks : Fin 1025
  /-- the codes 0 to 13 that Coproc gives a meaning, each code for itself (rule R217, decision D27): 0 to 3 are FADD, FSUB,
  FMUL, FDIV and 12, 13 are TADD, TSUB; a code with no instruction is refused whether listed or not (rule R229) -/
  coproc : List (BitVec 4)
  /-- Coproc for the 16 bit codes (rule R228) -/
  coproc16 : ExtCodes
  /-- StkReload (decision D28) -/
  stkReload : Supply
  cascadeChain : ChainRule
  deriving DecidableEq, Repr

/-- The spec's defaults (rule R6), and for the parameters with no default the launch of log entry 3
(DESIGN CHOICE): every data address exists, 1024 blocks, a Coproc for every code that has an instruction, a StkReload. -/
def Config.default : Config where
  pcVisible := .current
  branchScale := .one
  skipClearUntaken := false
  imm32Order := .lowFirst
  byteOrder := .little
  ldFill := .specDefault
  taskVector := .specDefault
  taskOfRef := .specDefault
  valid := .everywhere
  regBlocks := 1024
  coproc := [0, 1, 2, 3, 12, 13]
  coproc16 := .everyCode
  stkReload := .supplied
  cascadeChain := .refuse

/-- RESET_PC: the entry point of task 15, "not in source" (rule R31); log entry 4 names this value. -/
def Config.resetPc : BitVec 32 := 0

/-! ## Free values: constants with no body -/

/-- `FlagsCV(op, a, s, r)`: C and V after a SHIFT or LOGIC group instruction, "a draw" at each such instruction
(rules R159, R179, decision D12): the first argument is the draw counter. -/
opaque Config.flagsCV : Nat → FlagOp → Word → Word → Word → Bool × Bool

/-- `ShiftBig(op, a, s)`: the result of a shift or rotate by 32 or more (rule R160, decision D16). -/
opaque Config.shiftBig : ShiftOp → Word → Word → Word

/-- `DivCorner(op, a, s)`: the result of a division by zero and of 0x80000000 DVS 0xFFFFFFFF (rules R155, R157,
decision D18). -/
opaque Config.divCorner : ShiftOp → Word → Word → Word

/-- `LdFill(k, word)` where the launch supplies another function than the default (rule R48): its low 8k bits are
used. -/
opaque Config.ldFillOther : BitVec 2 → Word → Word

/-- The value of a LD from address bits 1:0 = k > 0 when BYTE_ORDER is big: "this spec does not define that
configuration further" (95_test_vectors.md section 8). -/
opaque Config.ldShiftBig : BitVec 2 → Word → Word

/-- `TaskVector(task)` where the launch supplies another function than the default (rule R43). -/
opaque Config.taskVectorOther : BitVec 15 → Word

/-- `TaskOfRef(ref)` where the launch supplies another function than the default (rule R52). -/
opaque Config.taskOfRefOther : Word → BitVec 15

/-- `Coproc(code, b, d)`: the result of an extended instruction (rule R217); "it may carry coprocessor state", so it
is drawn afresh at each use. -/
opaque Config.coprocResult : Nat → CoprocCode → Word → Word → Word

/-- `StkReload`: at a STK that moves SP across a block boundary, the block that becomes the other bank, or nothing
when there are no more frames (rules R224, R243). Arguments: the draw, BankA, BankB, the old SP, the new SP. -/
opaque Config.stkReloadBank : Nat → BitVec 10 → BitVec 10 → BitVec 14 → BitVec 14 → Option (BitVec 10)

/-- `Scheduler`: how late a turn a ready task among 0 to 7 draws when it comes to wait for the processor (rule R248,
decision D30). Every weakly fair order is one of these functions', and every one of these functions' orders is weakly fair
(log entry 11). -/
opaque Config.softwareWait : Nat → TaskNo → Nat

end Sys2Proof
end

