-- ==== Sys2Proof/Machine/State.lean ====
section
/-! DEFINITION. The state of the machine (10_state.md): sixteen triples (PC, STATUS, STACK), one register memory, one
data memory and one cascade latch (rule R26), the program text, and the model's own fields: the launch parameters, the
running task, the environment's coming moves, the turns of the software tasks and the draw counter. Plain data throughout. -/

namespace Sys2Proof.Machine

/-- STATUS (rule R21). Its 32 bits are, from bit 31 down: skip0 to skip7, BankA, BankB, N, Z, C, V; no bit is
reserved. `Status.toWord` in Flags.lean is that layout. -/
structure Status where
  /-- bits 31 to 24: skip0 is the most significant bit -/
  skip : BitVec 8
  /-- bits 23 to 14 -/
  bankA : BitVec 10
  /-- bits 13 to 4 -/
  bankB : BitVec 10
  /-- bit 3 -/
  n : Bool
  /-- bit 2 -/
  z : Bool
  /-- bit 1 -/
  c : Bool
  /-- bit 0 -/
  v : Bool
  deriving DecidableEq, Repr

/-- STACK (rule R25). Its 32 bits are, from bit 31 down: P, B, Task, R, SP. -/
structure Stack where
  /-- bit 31: "this task is in PICMode" -/
  p : Bool
  /-- bit 30: "indicates the BCMode" -/
  b : Bool
  /-- bits 29 to 15: the task identity -/
  task : BitVec 15
  /-- bit 14: "the current task is ready to run" -/
  r : Bool
  /-- bits 13 to 0: the word address of R0 in the stack object -/
  sp : BitVec 14
  deriving DecidableEq, Repr

/-- The three special registers of one task (rules R10, R17, R21, R25). -/
structure TaskRegs where
  /-- 32 bits: the address is `pc[27:0]`; `pc[31:28]` is the field of rule R18 -/
  pc : BitVec 32
  status : Status
  stack : Stack
  deriving DecidableEq, Repr

/-- One move of the environment: an R bit set by an external event or a timeout, or cleared (rules R246, R250). -/
structure ReadyMove where
  task : TaskNo
  ready : Bool
  deriving DecidableEq, Repr

/-- A 64 bit data address: an object part and an offset part (rule R41). -/
structure DataAddr where
  obj : Word
  off : Word
  deriving DecidableEq, Repr

/-- What a read found unwritten: `UnwrittenRead(what)` (rule R240). -/
inductive ReadOf
  /-- the program text at a 28 bit byte address -/
  | code (a : CodeAddr)
  /-- data memory: the aligned word at an address -/
  | data (a : DataAddr)
  deriving DecidableEq, Repr

/-- The named ends of a run (60_exceptions.md rule R240): "A fault is terminal ... no handler runs, because the source
describes none". Every one is safe: the machine stops where the hardware may go on. -/
inductive Fault
  /-- ST, STB: the object is not of the current task (rules R52, R242). Safe. -/
  | accessErrorStore (a : DataAddr)
  /-- LD: the object is of a read/write task other than the current one (rules R52, R242). Safe. -/
  | accessErrorLoad (a : DataAddr)
  /-- ST: address bits 1:0 are not 00 (rule R49). Safe. -/
  | misalignedStore (a : DataAddr)
  /-- instruction fetch: `pc[0] = 1` (rule R20). Safe. -/
  | misalignedFetch (pc : BitVec 32)
  /-- LD, ST, STB: Valid is false of the address and size (rule R41). Safe. -/
  | invalidAddress (a : DataAddr) (n : Nat)
  /-- STK, from StkReload only (rule R243). Safe. -/
  | noMoreFrames
  /-- LD of a word with a byte nothing has written, fetch of a word the program text does not hold (rules R32, R240). Safe. -/
  | unwrittenRead (what : ReadOf)
  /-- a step of a task with a bank number at or above REGMEM_WORDS / 16: no step exists there (rule R13, item U20). Safe. -/
  | bankOutOfRange
  deriving DecidableEq, Repr

/-- The steps with no meaning (60_exceptions.md rule R241). Every one is safe: it makes a claim unprovable. -/
inductive Refusal
  /-- an instruction exec has no meaning for yet; raised in exec's arms only. Safe. -/
  | notModelled (mnemonic : String)
  /-- JUMPL, JUMPL#: the base or offset value is an object address (rule R216). Safe. -/
  | sendUnmodelled
  /-- RTN (rule R225). Safe. -/
  | rtnUnmodelled
  /-- the extended codes 6 to 11, and any code Coproc gives no meaning (rules R217, R228, R229). Safe. -/
  | reservedExtended
  /-- a STK that changes SP[13:4] without a StkReload (rule R224). Safe. -/
  | stkAcrossBlock
  /-- a cascade instruction directly after a cascade instruction (rule R134). Safe. -/
  | cascadeChain
  /-- a step of a task whose STACK.P or STACK.B is 1 (rule R252). Safe. -/
  | modeUnmodelled
  deriving DecidableEq, Repr

/-- The machine's state. -/
structure State where
  /-- the launch parameters (rule R6); the model's own field, never written -/
  cfg : Config
  /-- PC, STATUS and STACK of the sixteen tasks (rules R17, R26) -/
  tasks : Vector TaskRegs 16
  /-- register memory (rule R13): word address and word, strictly rising, an unlisted word is 0 (log entry 4) -/
  regMem : List (Nat × Word)
  /-- data memory (rule R41): 64 bit address and byte, strictly rising, an unlisted byte is unwritten (log entry 5) -/
  mem : List Host.Cell
  /-- the program text IMem (rule R40): even 28 bit byte address and 16 bit word, strictly rising -/
  imem : List (Nat × Word16)
  /-- `casc.valid` (rule R27); `casc.value` is the register memory word of R15 of the running task -/
  cascValid : Bool
  /-- the task that runs the step or ran the last one (rule R28); the model's own field -/
  cur : TaskNo
  /-- the turn each waiting software task has drawn, nothing for a task that does not wait (rule R248, log entry 11); the
  model's own field -/
  turns : Vector (Option Nat) 16
  /-- the moves of R bits still to come, those before the next step first (rule R246); the model's own field -/
  env : List (List ReadyMove)
  /-- how many free values have been drawn; the model's own field (log entry 2) -/
  draws : Nat
  deriving DecidableEq, Repr

/-- STATUS as reset leaves it: unspecified (rule R31); zeros by log entry 4. -/
def Status.reset : Status :=
  { skip := 0, bankA := 0, bankB := 0, n := false, z := false, c := false, v := false }

/-- STACK as reset leaves it: R as given (rule R270), the rest zeros by log entry 4. -/
def Stack.reset (r : Bool) : Stack :=
  { p := false, b := false, task := 0, r := r, sp := 0 }

/-- "After reset only task 15 is ready" (rules R31, R270); everything else is unspecified and named by log
entries 3, 4 and 5. -/
def State.reset : State where
  cfg := Config.default
  tasks := (Vector.replicate 16 ⟨0, Status.reset, Stack.reset false⟩).set 15
    ⟨Config.resetPc, Status.reset, Stack.reset true⟩
  regMem := []
  mem := []
  imem := []
  cascValid := false
  cur := 15
  turns := Vector.replicate 16 none
  env := []
  draws := 0

end Sys2Proof.Machine
end

