-- ==== Sys2Proof/Machine/Ops.lean ====
section
/-! DEFINITION. The named operations over memory, registers and the special registers: sparse memories in canonical
form, register memory and the mapping of visible registers (10_state.md rules R11 to R14), the special registers of the
running task, data memory with its byte order (20_memory.md), and the two ways a step ends without a next state. -/

namespace Sys2Proof.Machine

/-- The outcome of an instruction or a step. -/
abbrev Result := Host.Outcome State Fault Refusal

/-! ## Ends of a step -/

/-- Taking an exception: "`raise <Fault>(info)`: the step ends in the named fault"; there is no trap entry, nothing is
saved, no mode changes and no handler runs (rules R240, R254), and so there is nothing to return from (rule R255). -/
def raise (f : Fault) : Result := .fault f

/-- "`refuse <Reason>`: the model gives the instruction no meaning" (rule R241). -/
def refuse (r : Refusal) : Result := .refused r

/-! ## Sparse memories: lists of (key, value) pairs, keys strictly rising -/

/-- The value listed at a key. -/
def cellRead {α : Type} : List (Nat × α) → Nat → Option α
  | [], _ => none
  | (a, v) :: rest, k => if k = a then some v else cellRead rest k

/-- List a value at a key. -/
def cellWrite {α : Type} : List (Nat × α) → Nat → α → List (Nat × α)
  | [], k, x => [(k, x)]
  | (a, v) :: rest, k, x =>
    if k < a then (k, x) :: (a, v) :: rest
    else if k = a then (k, x) :: rest
    else (a, v) :: cellWrite rest k x

/-- List nothing at a key. -/
def cellErase {α : Type} : List (Nat × α) → Nat → List (Nat × α)
  | [], _ => []
  | (a, v) :: rest, k => if k = a then cellErase rest k else (a, v) :: cellErase rest k

/-- Every key is at least `lo`, and the keys rise strictly. -/
def cellsRiseFrom {α : Type} (lo : Nat) : List (Nat × α) → Bool
  | [] => true
  | (a, _) :: rest => decide (lo ≤ a) && cellsRiseFrom (a + 1) rest

/-- The canonical form of data memory: addresses strictly rising. An unlisted byte reads as no value, which no entry
equals. -/
def Memory.wf (m : List Host.Cell) : Bool := cellsRiseFrom 0 m

/-- The canonical form of the program text. -/
def textWf (m : List (Nat × Word16)) : Bool := cellsRiseFrom 0 m

/-- The canonical form of register memory: word addresses strictly rising, no entry equal to 0, which an unlisted word
reads as. -/
def regMemWf (m : List (Nat × Word)) : Bool := cellsRiseFrom 0 m && m.all (fun e => e.2 != 0)

/-! ## The running task's special registers -/

/-- PC, STATUS and STACK of the running task. -/
def State.regs (s : State) : TaskRegs := s.tasks[s.cur]

def State.pc (s : State) : BitVec 32 := s.regs.pc
def State.status (s : State) : Status := s.regs.status
def State.stack (s : State) : Stack := s.regs.stack

/-- Replace the running task's special registers. -/
def State.setRegs (s : State) (t : TaskRegs) : State := { s with tasks := s.tasks.set s.cur t }

def State.setPc (s : State) (pc : BitVec 32) : State := s.setRegs { s.regs with pc := pc }
def State.setStatus (s : State) (st : Status) : State := s.setRegs { s.regs with status := st }
def State.setStack (s : State) (st : Stack) : State := s.setRegs { s.regs with stack := st }

/-- `pc[27:0]`: the address of the instruction being executed (rule R17). -/
def State.pcAddr (s : State) : CodeAddr := s.pc.extractLsb' 0 28

/-- `pc[31:28]` (rule R18). -/
def State.pcTop (s : State) : BitVec 4 := s.pc.extractLsb' 28 4

/-- Change only `pc[27:0]` (rule R18). -/
def State.setPcAddr (s : State) (a : CodeAddr) : State := s.setPc (s.pcTop ++ a)

/-- `pc[27:0] <- (pc[27:0] + len) mod 2^28` (rule R19). -/
def State.advance (s : State) (len : Nat) : State := s.setPcAddr (s.pcAddr + BitVec.ofNat 28 len)

/-- `STATUS[31:24] <- m`. -/
def State.setSkip (s : State) (m : BitVec 8) : State := s.setStatus { s.status with skip := m }

/-- The four flags (rule R23). -/
def State.setFlags (s : State) (n z c v : Bool) : State :=
  s.setStatus { s.status with n := n, z := z, c := c, v := v }

/-- `STATUS[31:24] <- STATUS[30:24] ‖ 0` (rule R22). -/
def State.shiftSkip (s : State) : State := s.setSkip (s.status.skip <<< 1)

/-- `skip0`, the old one decides whether the instruction is a NOOP (rule R22). -/
def State.skip0 (s : State) : Bool := s.status.skip.getLsbD 7

def State.setCasc (s : State) (valid : Bool) : State := { s with cascValid := valid }

/-- One more free value has been drawn. -/
def State.bumpDraws (s : State) : State := { s with draws := s.draws + 1 }

/-- The common end of an instruction that is no cascade and does not transfer control: the PC passes over it and its
extension words (rule R19), and no cascade is left (rule R28 step 4). -/
def State.retire (s : State) (len : Nat) : State := (s.advance len).setCasc false

/-! ## Registers -/

/-- The slot of visible register `n`: `a + n` with `a = STACK.SP[3:0]` (rule R14). -/
def slotOf (sp : BitVec 14) (n : Reg) : Nat := (sp.extractLsb' 0 4).toNat + n.toNat

/-- The register memory word a slot is: slots 0 to 15 in BankA, 16 to 30 in BankB (rule R14). -/
def physOf (bankA bankB : BitVec 10) (sp : BitVec 14) (n : Reg) : Nat :=
  if slotOf sp n < 16 then 16 * bankA.toNat + slotOf sp n
  else 16 * bankB.toNat + (slotOf sp n - 16)

/-- `phys(n)` of the running task (rule R14). -/
def State.phys (s : State) (n : Reg) : Nat := physOf s.status.bankA s.status.bankB s.stack.sp n

/-- Read a word of register memory. -/
def State.readPhys (s : State) (w : Nat) : Word := (cellRead s.regMem w).getD 0

/-- Write a word of register memory, keeping the canonical form. -/
def State.writePhys (s : State) (w : Nat) (v : Word) : State :=
  { s with regMem := if v = 0 then cellErase s.regMem w else cellWrite s.regMem w v }

/-- `x[n]`: "R15 is always read as having a zero value" (rule R11). -/
def State.readReg (s : State) (n : Reg) : Word := if n = 15 then 0 else s.readPhys (s.phys n)

/-- `x[n] <- v`: the write goes to the word `n` maps to, for register 15 too (rules R12, R137). -/
def State.writeReg (s : State) (n : Reg) (v : Word) : State := s.writePhys (s.phys n) v

/-- `casc.value` "is physically the register memory word `phys(15)` of the running task" (rules R27, R137). -/
def State.cascValue (s : State) : Word := s.readPhys (s.phys 15)

/-- Both banks of the running task are below REGMEM_WORDS / 16 (rule R13, item U20). -/
def State.banksExist (s : State) : Bool :=
  decide (s.status.bankA.toNat < s.cfg.regBlocks.val) && decide (s.status.bankB.toNat < s.cfg.regBlocks.val)

/-! ## Data addresses -/

/-- "The base value has its top bits indicating an object address": top two bits 01 or 10 (rules R42, R210, R214). -/
def isObjRef (v : Word) : Bool := v.getLsbD 31 != v.getLsbD 30

/-- `TaskVector(task)`: by default `0b10 ‖ task ‖ 0^15` (rule R43, decision D19). -/
def taskVectorOf (f : OpenFn) (t : BitVec 15) : Word :=
  match f with
  | .specDefault => 0b10#2 ++ t ++ 0#15
  | .supplied => Config.taskVectorOther t

/-- `TaskOfRef(ref)`: by default the 15 bit t of form 10, and of form 01 `t[7] ‖ 0^7 ‖ t[6:0]` (rule R52, decision D20). -/
def taskOfRefOf (f : OpenFn) (ref : Word) : BitVec 15 :=
  match f with
  | .specDefault =>
    if ref.getLsbD 31 then ref.extractLsb' 15 15
    else ref.extractLsb' 29 1 ++ 0#7 ++ ref.extractLsb' 22 7
  | .supplied => Config.taskOfRefOther ref

/-- The effective address (44_ld_st_stb.md rule R190): a base of the first kind is added to the offset inside the
current task's byte vector (rule R43); an object reference is the object part and no addition is performed (rule R44). -/
def State.effectiveAddr (s : State) (bv ov : Word) : DataAddr :=
  if isObjRef bv then ⟨bv, ov⟩
  else ⟨taskVectorOf s.cfg.taskVector s.stack.task, bv + ov⟩

/-- `own`: the address names an object of the current task (rule R52). "A first-kind address always names the current
task's byte vector, so it always passes." -/
def State.ownAddr (s : State) (bv : Word) : Bool :=
  !isObjRef bv || taskOfRefOf s.cfg.taskOfRef bv == s.stack.task

/-- The store rule of R52: ST and STB are allowed when `own(ref)`. -/
def State.storeAllowed (s : State) (bv : Word) : Bool := s.ownAddr bv

/-- The load rule of R52: LD is allowed when `own(ref)` or `ref[29] = 1`, the read-only bit (rule R45). -/
def State.loadAllowed (s : State) (bv : Word) : Bool := s.ownAddr bv || bv.getLsbD 29

/-- The memory's key of a data address: the 64 bit address with the object part on top (rule R41). -/
def DataAddr.key (a : DataAddr) : Nat := a.obj.toNat * 2 ^ 32 + a.off.toNat

/-- The address with offset bits 1:0 cleared. -/
def DataAddr.aligned (a : DataAddr) : DataAddr := ⟨a.obj, a.off.extractLsb' 2 30 ++ 0#2⟩

/-- Offset bits 1:0. -/
def DataAddr.low2 (a : DataAddr) : BitVec 2 := a.off.extractLsb' 0 2

/-- Whether the region holds the byte at offset `off` of object `obj`. -/
def regionHolds (r : Region) (obj : Word) (off : Nat) : Bool :=
  decide (r.obj = obj) && decide (r.lo ≤ off) && decide (off < r.lo + r.size)

/-- Whether one data byte exists. -/
def byteExists (m : ValidMap) (obj : Word) (off : Nat) : Bool :=
  match m with
  | .everywhere => true
  | .only rs => rs.any (fun r => regionHolds r obj off)

/-- `Valid(addr, n)`: the `n` bytes from the address exist (rule R41, decision D23). -/
def validAddr (m : ValidMap) (a : DataAddr) (n : Nat) : Bool :=
  (List.range n).all (fun i => byteExists m a.obj (a.off.toNat + i))

/-! ## Data memory -/

/-- One byte of data memory; nothing where it is unwritten (rule R32). -/
def State.readByte (s : State) (key : Nat) : Option Byte := cellRead s.mem key

def State.writeByte (s : State) (key : Nat) (v : Byte) : State := { s with mem := cellWrite s.mem key v }

/-- Four bytes, the lowest address first, as a word in a byte order (rule R47). -/
def wordOfBytes (o : ByteOrder) (b0 b1 b2 b3 : Byte) : Word :=
  match o with
  | .little => b3 ++ b2 ++ b1 ++ b0
  | .big => b0 ++ b1 ++ b2 ++ b3

/-- The byte of a word at place `i` from the lowest address (rule R47). -/
def byteOfWord (o : ByteOrder) (v : Word) (i : Nat) : Byte :=
  match o with
  | .little => v.extractLsb' (8 * i) 8
  | .big => v.extractLsb' (8 * (3 - i)) 8

/-- `MemRead(addr, 4)`; nothing when a byte of it is unwritten. -/
def State.memRead4 (s : State) (a : DataAddr) : Option Word :=
  match s.readByte a.key, s.readByte (a.key + 1), s.readByte (a.key + 2), s.readByte (a.key + 3) with
  | some b0, some b1, some b2, some b3 => some (wordOfBytes s.cfg.byteOrder b0 b1 b2 b3)
  | _, _, _, _ => none

/-- `MemWrite(addr, 4, v)`. -/
def State.memWrite4 (s : State) (a : DataAddr) (v : Word) : State :=
  (((s.writeByte a.key (byteOfWord s.cfg.byteOrder v 0)).writeByte (a.key + 1)
    (byteOfWord s.cfg.byteOrder v 1)).writeByte (a.key + 2)
    (byteOfWord s.cfg.byteOrder v 2)).writeByte (a.key + 3) (byteOfWord s.cfg.byteOrder v 3)

/-- `MemWrite(addr, 1, v)`: one byte, no other byte of the word changes (rule R50). -/
def State.memWrite1 (s : State) (a : DataAddr) (v : Byte) : State := s.writeByte a.key v

/-- The value a LD delivers from the aligned word and `k = off[1:0]` (rule R48): the word shifted right by 8k, the top 8k
bits `LdFill(k, word)`, by default zeros. -/
def loadValue (order : ByteOrder) (fill : OpenFn) (k : BitVec 2) (word : Word) : Word :=
  if order = .big ∧ k ≠ 0 then Config.ldShiftBig k word
  else
    match fill with
    | .specDefault => word >>> (8 * k.toNat)
    | .supplied => (word >>> (8 * k.toNat)) ||| (Config.ldFillOther k word <<< (32 - 8 * k.toNat))

end Sys2Proof.Machine
end

