-- ==== Sys2Proof/Machine/Flags.lean ====
section
/-! DEFINITION. STATUS and STACK as 32 bit words (10_state.md rules R21, R25), the conditions of BRANCH and SKIP
(40_branch_skip.md rule R100), and every result and flag computation of the MATH, SHIFT and LOGIC groups. -/

namespace Sys2Proof.Machine

/-- STATUS as its 32 bits (rule R21). -/
def Status.toWord (st : Status) : Word :=
  st.skip ++ st.bankA ++ st.bankB ++ BitVec.ofBool st.n ++ BitVec.ofBool st.z ++ BitVec.ofBool st.c ++
    BitVec.ofBool st.v

/-- STATUS from its 32 bits (rule R21). -/
def statusOfWord (w : Word) : Status where
  skip := w.extractLsb' 24 8
  bankA := w.extractLsb' 14 10
  bankB := w.extractLsb' 4 10
  n := w.getLsbD 3
  z := w.getLsbD 2
  c := w.getLsbD 1
  v := w.getLsbD 0

/-- STACK as its 32 bits (rule R25). -/
def Stack.toWord (st : Stack) : Word :=
  BitVec.ofBool st.p ++ BitVec.ofBool st.b ++ st.task ++ BitVec.ofBool st.r ++ st.sp

/-- STACK from its 32 bits (rule R25). -/
def stackOfWord (w : Word) : Stack where
  p := w.getLsbD 31
  b := w.getLsbD 30
  task := w.extractLsb' 15 15
  r := w.getLsbD 14
  sp := w.extractLsb' 0 14

/-- The test `T` of a condition on the flags (rule R100). -/
def testHolds (t : CondTest) (st : Status) : Bool :=
  match t with
  | .zero => st.z
  | .carry => st.c
  | .negative => st.n
  | .overflow => st.v
  | .less => st.n ^^ st.v
  | .lessOrEqual => st.z || (st.n ^^ st.v)
  | .lowerOrSame => st.z || !st.c
  | .always => true

/-- `Cond(w) = (T = w[8])` (rule R100). -/
def condHolds (c : Cond) (st : Status) : Bool := testHolds c.test st == c.polarity

/-- A result with the C and V that come with it. -/
structure AluOut where
  r : Word
  c : Bool
  v : Bool
  deriving DecidableEq, Repr

/-! ## MATH (41_math_cascade.md) -/

/-- Bit A of a MATH operation: the previous value of dest is added (rules R79, R120). -/
def mathBitA : MathOp → Bool
  | .mov | .inc | .not | .neg => false
  | .add | .adc | .sbb | .sub => true

/-- Bit N: "source is bitwise inverted before being used". -/
def mathBitN : MathOp → Bool
  | .mov | .inc | .add | .adc => false
  | .not | .neg | .sbb | .sub => true

/-- Bit C: "the value of the carry in bit". -/
def mathBitC : MathOp → Bool
  | .mov | .not | .add | .sbb => false
  | .inc | .neg | .adc | .sub => true

/-- The carry in: STATUS.C for ADC and SBB, the instruction's bit C for every other (rule R121). -/
def carryIn (op : MathOp) (statusC : Bool) : Bool :=
  match op with
  | .adc | .sbb => statusC
  | .mov | .inc | .not | .neg | .add | .sub => mathBitC op

/-- `ovf(p, q, r)` (rule R122). -/
def ovf (p q r : Word) : Bool := p.msb == q.msb && r.msb != p.msb

/-- The one addition of the MATH group: `p + q + cin` exactly, cut to 32 bits, C its carry out (rules R120, R122). -/
def addWithCarry (p q : Word) (cin : Bool) : AluOut :=
  let sum := p.toNat + q.toNat + cin.toNat
  let r := BitVec.ofNat 32 sum
  ⟨r, decide (2 ^ 32 ≤ sum), ovf p q r⟩

/-- A MATH operation on the dest operand, the source operand and STATUS.C (rule R120). -/
def mathOut (op : MathOp) (dv sv : Word) (statusC : Bool) : AluOut :=
  addWithCarry (if mathBitA op then dv else 0) (if mathBitN op then ~~~sv else sv) (carryIn op statusC)

/-! ## SHIFT (42_shift.md) -/

/-- A shift or rotate by the whole source value, open from 32 up (rule R160). -/
def shiftBy (op : ShiftOp) (f : Word → Nat → Word) (dv sv : Word) : Word :=
  if sv.toNat < 32 then f dv sv.toNat else Config.shiftBig op dv sv

/-- The result of a SHIFT group operation (rules R151 to R158). -/
def shiftResult (op : ShiftOp) (dv sv : Word) : Word :=
  match op with
  | .shr => shiftBy .shr (fun x n => x >>> n) dv sv
  | .shl => shiftBy .shl (fun x n => x <<< n) dv sv
  | .asr => shiftBy .asr (fun x n => x.sshiftRight n) dv sv
  | .rot => shiftBy .rot (fun x n => x.rotateLeft n) dv sv
  | .div => if sv = 0 then Config.divCorner .div dv sv else dv / sv
  | .mul => dv * sv
  | .dvs =>
    if sv = 0 ∨ (dv = 0x80000000 ∧ sv = 0xFFFFFFFF) then Config.divCorner .dvs dv sv
    else BitVec.ofInt 32 (dv.toInt.tdiv sv.toInt)
  | .mls => dv * sv

/-! ## LOGIC (43_logic.md) -/

/-- Bit A of a LOGIC operation: "the basic logic operation is AND, otherwise it is OR" (rules R79, R170). -/
def logicBitA : LogicOp → Bool
  | .ior | .xor | .nor | .eqv => false
  | .and | .ani | .nnd | .nai => true

/-- Bit N: "the results should be inverted". -/
def logicBitN : LogicOp → Bool
  | .ior | .xor | .and | .ani => false
  | .nor | .eqv | .nnd | .nai => true

/-- Bit M: AND becomes ANDINVERT, OR becomes XOR. -/
def logicBitM : LogicOp → Bool
  | .ior | .nor | .and | .nnd => false
  | .xor | .eqv | .ani | .nai => true

/-- A one bit flag replicated to 32 bits. -/
def replicated (b : Bool) : Word := if b then BitVec.allOnes 32 else 0

/-- `result := N xor [A ? (src and (dest xor M)) : (M ? src xor dest : src or dest)]` (rule R170). -/
def logicResult (op : LogicOp) (dv sv : Word) : Word :=
  (if logicBitA op then sv &&& (dv ^^^ replicated (logicBitM op))
   else if logicBitM op then sv ^^^ dv else sv ||| dv) ^^^ replicated (logicBitN op)

/-! ## Draws -/

/-- C and V after a SHIFT or LOGIC group instruction: a draw (rules R159, R179). -/
def drawFlags (s : State) (op : FlagOp) (dv sv r : Word) : AluOut :=
  ⟨r, (Config.flagsCV s.draws op dv sv r).1, (Config.flagsCV s.draws op dv sv r).2⟩

end Sys2Proof.Machine
end

