-- ==== Sys2Proof/Machine/Branch.lean ====
section
/-! DEFINITION. The meanings of SKIP and BRANCH (40_branch_skip.md). The skip bits have been shifted when they run
(10_state.md rule R28 step 3), and an incoming cascade is lost (rules R107, R133). -/

namespace Sys2Proof.Machine

/-- SKIP: "If the condition is true, then the eight skip bits in the instruction are ORed with their respective bits in
STATUS" (R103, R104). -/
def execSkip (c : Cond) (m : BitVec 8) (s : State) : Result :=
  .next ((if condHolds c s.status then s.setSkip (s.status.skip ||| m) else s).retire 2)

/-- The PC value the offset is added to (R101, PC_VISIBLE). -/
def branchBase (s : State) : CodeAddr :=
  match s.cfg.pcVisible with
  | .current => s.pcAddr
  | .next => s.pcAddr + 2

/-- `BRANCH_SCALE * sext_28(w[7:0])` (R101). -/
def branchOffset (scale : BranchScale) (off : BitVec 8) : CodeAddr :=
  match scale with
  | .one => off.signExtend 28
  | .two => off.signExtend 28 + off.signExtend 28

/-- BRANCH: taken, it adds the offset and clears the skip bits; not taken, it passes on and clears them only where
SKIP_CLEAR_UNTAKEN says so (R101, R102). `pc[31:28]` is unchanged. -/
def execBranch (c : Cond) (off : BitVec 8) (s : State) : Result :=
  if condHolds c s.status then
    .next (((s.setPcAddr (branchBase s + branchOffset s.cfg.branchScale off)).setSkip 0).setCasc false)
  else
    .next ((if s.cfg.skipClearUntaken then s.setSkip 0 else s).retire 2)

end Sys2Proof.Machine
end

