-- ==== Sys2Proof/Machine/Operands.lean ====
section
/-! DEFINITION. The operand forms (30_encoding.md rules R75 to R77), the dest operand with its incoming cascade
(41_math_cascade.md rule R132), and the shared ends of the MATH, SHIFT and LOGIC groups. -/

namespace Sys2Proof.Machine

/-- The value of an immediate: 4 and 16 bit ones zero-extended, the two words of a 32 bit one in IMM32_ORDER (rule R76). -/
def immValue (order : Imm32Order) (m : Imm) : Word :=
  match m with
  | .short v => v.setWidth 32
  | .word e => e.setWidth 32
  | .long e1 e2 =>
    match order with
    | .lowFirst => e2 ++ e1
    | .highFirst => e1 ++ e2

/-- The length in bytes of an instruction with this source or offset operand (rule R77). -/
def srcLen (src : Src) : Nat :=
  match src with
  | .reg _ => 2
  | .imm (.short _) => 2
  | .imm (.word _) => 4
  | .imm (.long _ _) => 6

/-- The value of `Src(w)` (rule R76). -/
def State.srcValue (s : State) (src : Src) : Word :=
  match src with
  | .reg r => s.readReg r
  | .imm m => immValue s.cfg.imm32Order m

/-- `dv <- if c.valid then c.value else x[d]` (rule R132). -/
def State.destOperand (s : State) (d : Reg) : Word := if s.cascValid then s.cascValue else s.readReg d

/-- A cascade instruction that arrives with `c.valid = 1` and may not (rule R134). -/
def State.chainRefused (s : State) (k : Bool) : Bool :=
  k && s.cascValid && decide (s.cfg.cascadeChain = .refuse)

/-- The common end of MATH, SHIFT and LOGIC: N and Z from the result, C and V as given, the result to dest, or with
K = 1 to the latch, which is the word of R15 (rules R120, R131, R137), then on to the next instruction. -/
def State.aluRetire (s : State) (k : Bool) (d : Reg) (out : AluOut) (len : Nat) : State :=
  (((s.setFlags out.r.msb (out.r == 0) out.c out.v).writeReg (if k then 15 else d) out.r).advance len).setCasc k

/-- A MATH group instruction (rules R120, R131). -/
def mathInstr (op : MathOp) (k : Bool) (d : Reg) (src : Src) (s : State) : Result :=
  if s.chainRefused k then refuse .cascadeChain
  else
    .next (s.aluRetire k d (mathOut op (s.destOperand d) (s.srcValue src) s.status.c) (srcLen src))

/-- A SHIFT group instruction (rules R150, R131, R159). -/
def shiftInstr (op : ShiftOp) (k : Bool) (d : Reg) (src : Src) (s : State) : Result :=
  if s.chainRefused k then refuse .cascadeChain
  else
    let dv := s.destOperand d
    let sv := s.srcValue src
    .next (s.aluRetire k d (drawFlags s (.shift op) dv sv (shiftResult op dv sv)) (srcLen src)).bumpDraws

/-- A LOGIC group instruction (rules R170, R131, R179). -/
def logicInstr (op : LogicOp) (k : Bool) (d : Reg) (src : Src) (s : State) : Result :=
  if s.chainRefused k then refuse .cascadeChain
  else
    let dv := s.destOperand d
    let sv := s.srcValue src
    .next (s.aluRetire k d (drawFlags s (.logic op) dv sv (logicResult op dv sv)) (srcLen src)).bumpDraws

end Sys2Proof.Machine
end

