-- ==== Sys2Proof/Machine/Jump.lean ====
section
/-! DEFINITION. The meanings of JUMPL and of the extended instructions (45_jumpl_send_extended.md). An incoming cascade
is lost (41_math_cascade.md rule R133). -/

namespace Sys2Proof.Machine

/-! ## JUMPL -/

/-- The link value: "The previous value of PC" under PC_VISIBLE (R210, R211). -/
def linkValue (s : State) (len : Nat) : Word :=
  match s.cfg.pcVisible with
  | .current => s.pc
  | .next => s.pcTop ++ (s.pcAddr + BitVec.ofNat 28 len)

/-- Jump and link: all 32 bits of base + offset to PC, the link to savePC, the skip bits cleared; a base or offset that
is an object address makes it a SEND, which is refused (R210, R212, R214, R216). Both operands are read before any
write. -/
def jumpAndLink (b l : Reg) (src : Src) (s : State) : Result :=
  let bv := s.readReg b
  let ov := s.srcValue src
  if isObjRef bv || isObjRef ov then refuse .sendUnmodelled
  else .next ((((s.writeReg l (linkValue s (srcLen src))).setPc (bv + ov)).setSkip 0).setCasc false)

/-- JUMPL (R210). -/
def execJumpl (b l o : Reg) (s : State) : Result := jumpAndLink b l (.reg o) s

/-- JUMPL#: the 32 bit immediate form (R230). -/
def execJumplI (b l : Reg) (e1 e2 : Word16) (s : State) : Result := jumpAndLink b l (.imm (.long e1 e2)) s

/-! ## Coprocessor calls -/

/-- Whether Coproc gives a 16 bit code a meaning (R228). -/
def extHas (codes : ExtCodes) (e : Word16) : Bool :=
  match codes with
  | .noCode => false
  | .everyCode => true
  | .only cs => cs.contains e

/-- Whether Coproc gives the code a meaning, asked of each code for itself (R217, R228). -/
def coprocHas (cfg : Config) (code : CoprocCode) : Bool :=
  match code with
  | .short c => cfg.coproc.contains c
  | .ext e => extHas cfg.coproc16 e

/-- `x[d] <- Coproc(code, x[b], x[d])`: the base and dest registers are sent at the beginning, dest is updated at the end;
flags and skip bits are unchanged; without a meaning for the code the instruction is refused (R217). -/
def coprocCall (code : CoprocCode) (len : Nat) (b d : Reg) (s : State) : Result :=
  if coprocHas s.cfg code then
    .next (((s.writeReg d (Config.coprocResult s.draws code (s.readReg b) (s.readReg d))).retire len).bumpDraws)
  else refuse .reservedExtended

/-- The codes 6 to 11 "have no instruction": refused (R229). -/
def unassigned (_s : State) : Result := refuse .reservedExtended

/-- FADD (R219). -/
def execFadd (b d : Reg) (s : State) : Result := coprocCall (.short 0) 2 b d s

/-- FSUB (R220). -/
def execFsub (b d : Reg) (s : State) : Result := coprocCall (.short 1) 2 b d s

/-- FMUL (R221). -/
def execFmul (b d : Reg) (s : State) : Result := coprocCall (.short 2) 2 b d s

/-- FDIV (R222). -/
def execFdiv (b d : Reg) (s : State) : Result := coprocCall (.short 3) 2 b d s

/-- EXT_RESERVED_6: an unassigned slot (R229). -/
def execExtReserved6 (_b _d : Reg) (s : State) : Result := unassigned s

/-- EXT_RESERVED_7: an unassigned slot (R229). -/
def execExtReserved7 (_b _d : Reg) (s : State) : Result := unassigned s

/-- EXT_RESERVED_8: an unassigned slot (R229). -/
def execExtReserved8 (_b _d : Reg) (s : State) : Result := unassigned s

/-- EXT_RESERVED_9: an unassigned slot (R229). -/
def execExtReserved9 (_b _d : Reg) (s : State) : Result := unassigned s

/-- EXT_RESERVED_A: an unassigned slot (R229). -/
def execExtReservedA (_b _d : Reg) (s : State) : Result := unassigned s

/-- EXT_RESERVED_B: an unassigned slot (R229). -/
def execExtReservedB (_b _d : Reg) (s : State) : Result := unassigned s

/-- TADD (R226). -/
def execTadd (b d : Reg) (s : State) : Result := coprocCall (.short 12) 2 b d s

/-- TSUB (R227). -/
def execTsub (b d : Reg) (s : State) : Result := coprocCall (.short 13) 2 b d s

/-- EXT16: a 16 bit extended instruction, 4 bytes (R228). -/
def execExt16 (b d : Reg) (e : Word16) (s : State) : Result := coprocCall (.ext e) 4 b d s

/-! ## STK and RTN -/

/-- `SP' <- (STACK.SP + source - dest) mod 2^14` (R223). -/
def stkSp (sp : BitVec 14) (src d : Reg) : BitVec 14 := sp + src.setWidth 14 - d.setWidth 14

/-- A new SP and new banks for the running task. -/
def State.slide (s : State) (sp : BitVec 14) (bankA bankB : BitVec 10) : State :=
  (s.setStack { s.stack with sp := sp }).setStatus { s.status with bankA := bankA, bankB := bankB }

/-- STK across a block boundary: sliding up requires BankA' = BankB, sliding down BankB' = BankA; the other bank is
StkReload's, or there are no more frames (R224, R243). No word of register memory moves. -/
def stkReload (src d : Reg) (s : State) : Result :=
  match s.cfg.stkReload with
  | .absent => refuse .stkAcrossBlock
  | .supplied =>
    let sp' := stkSp s.stack.sp src d
    match Config.stkReloadBank s.draws s.status.bankA s.status.bankB s.stack.sp sp' with
    | none => raise .noMoreFrames
    | some bank =>
      if d.toNat < src.toNat then .next (((s.slide sp' s.status.bankB bank).retire 2).bumpDraws)
      else .next (((s.slide sp' bank s.status.bankA).retire 2).bumpDraws)

/-- STK: "the register which was originally named by the source address becomes named by the destination address"
(R223). -/
def execStk (src d : Reg) (s : State) : Result :=
  let sp' := stkSp s.stack.sp src d
  if sp'.extractLsb' 4 10 = s.stack.sp.extractLsb' 4 10 then
    .next ((s.slide sp' s.status.bankA s.status.bankB).retire 2)
  else stkReload src d s

/-- RTN: it undoes a SEND, whose stack change the source does not encode; refused (R225). -/
def execRtn (_src _d : Reg) (_s : State) : Result := refuse .rtnUnmodelled

end Sys2Proof.Machine
end

