-- ==== Sys2Proof/Machine/LoadStore.lean ====
section
/-! DEFINITION. The meanings of LD, ST and STB (44_ld_st_stb.md). Checks in the order of rule R194: access, alignment
(ST only), Valid. They write no flags, and an incoming cascade is lost (rule R196). -/

namespace Sys2Proof.Machine

/-- LD: the aligned word that contains the addressed byte, shifted so that this byte arrives in bits 7:0 (R191, R48). A
word with an unwritten byte is an unwritten read (R32). -/
def load (b r : Reg) (src : Src) (s : State) : Result :=
  let bv := s.readReg b
  let a := s.effectiveAddr bv (s.srcValue src)
  if !s.loadAllowed bv then raise (.accessErrorLoad a)
  else if !validAddr s.cfg.valid a.aligned 4 then raise (.invalidAddress a.aligned 4)
  else
    match s.memRead4 a.aligned with
    | none => raise (.unwrittenRead (.data a.aligned))
    | some w =>
      .next ((s.writeReg r (loadValue s.cfg.byteOrder s.cfg.ldFill a.low2 w)).retire (srcLen src))

/-- ST: the word at an aligned address (R192, R49). -/
def store (b r : Reg) (src : Src) (s : State) : Result :=
  let bv := s.readReg b
  let a := s.effectiveAddr bv (s.srcValue src)
  if !s.storeAllowed bv then raise (.accessErrorStore a)
  else if a.low2 ≠ 0 then raise (.misalignedStore a)
  else if !validAddr s.cfg.valid a 4 then raise (.invalidAddress a 4)
  else .next ((s.memWrite4 a (s.readReg r)).retire (srcLen src))

/-- STB: "Only the lowest 8 bits in the indicated register are saved to memory" (R193, R50). -/
def storeByte (b r : Reg) (src : Src) (s : State) : Result :=
  let bv := s.readReg b
  let a := s.effectiveAddr bv (s.srcValue src)
  if !s.storeAllowed bv then raise (.accessErrorStore a)
  else if !validAddr s.cfg.valid a 1 then raise (.invalidAddress a 1)
  else .next ((s.memWrite1 a ((s.readReg r).extractLsb' 0 8)).retire (srcLen src))

/-- STB with a register offset (R193). -/
def execStb (b r o : Reg) (s : State) : Result := storeByte b r (.reg o) s

/-- STB# (R193). -/
def execStbI (b r : Reg) (m : Imm) (s : State) : Result := storeByte b r (.imm m) s

/-- LD with a register offset (R191). -/
def execLd (b r o : Reg) (s : State) : Result := load b r (.reg o) s

/-- LD# (R191). -/
def execLdI (b r : Reg) (m : Imm) (s : State) : Result := load b r (.imm m) s

/-- ST with a register offset (R192). -/
def execSt (b r o : Reg) (s : State) : Result := store b r (.reg o) s

/-- ST# (R192). -/
def execStI (b r : Reg) (m : Imm) (s : State) : Result := store b r (.imm m) s

end Sys2Proof.Machine
end

