-- ==== Sys2Proof/Machine/Logic.lean ====
section
/-! DEFINITION. The meanings of the LOGIC group (43_logic.md), one definition per instruction over `logicInstr`. -/

namespace Sys2Proof.Machine

/-- IOR: r = dv | s (R171). -/
def execIor (d : Reg) (r : Reg) (s : State) : Result := logicInstr .ior false d (.reg r) s

/-- IOR#: r = dv | s (R171). -/
def execIorI (d : Reg) (m : Imm) (s : State) : Result := logicInstr .ior false d (.imm m) s

/-- KIOR: r = dv | s, the result cascaded (R171, R131). -/
def execKior (d : Reg) (r : Reg) (s : State) : Result := logicInstr .ior true d (.reg r) s

/-- KIOR#: r = dv | s, the result cascaded (R171, R131). -/
def execKiorI (d : Reg) (m : Imm) (s : State) : Result := logicInstr .ior true d (.imm m) s

/-- XOR: r = dv ^ s (R172). -/
def execXor (d : Reg) (r : Reg) (s : State) : Result := logicInstr .xor false d (.reg r) s

/-- XOR#: r = dv ^ s (R172). -/
def execXorI (d : Reg) (m : Imm) (s : State) : Result := logicInstr .xor false d (.imm m) s

/-- KXOR: r = dv ^ s, the result cascaded (R172, R131). -/
def execKxor (d : Reg) (r : Reg) (s : State) : Result := logicInstr .xor true d (.reg r) s

/-- KXOR#: r = dv ^ s, the result cascaded (R172, R131). -/
def execKxorI (d : Reg) (m : Imm) (s : State) : Result := logicInstr .xor true d (.imm m) s

/-- NOR: r = ~(dv | s) (R173). -/
def execNor (d : Reg) (r : Reg) (s : State) : Result := logicInstr .nor false d (.reg r) s

/-- NOR#: r = ~(dv | s) (R173). -/
def execNorI (d : Reg) (m : Imm) (s : State) : Result := logicInstr .nor false d (.imm m) s

/-- KNOR: r = ~(dv | s), the result cascaded (R173, R131). -/
def execKnor (d : Reg) (r : Reg) (s : State) : Result := logicInstr .nor true d (.reg r) s

/-- KNOR#: r = ~(dv | s), the result cascaded (R173, R131). -/
def execKnorI (d : Reg) (m : Imm) (s : State) : Result := logicInstr .nor true d (.imm m) s

/-- EQV: r = ~(dv ^ s) (R174). -/
def execEqv (d : Reg) (r : Reg) (s : State) : Result := logicInstr .eqv false d (.reg r) s

/-- EQV#: r = ~(dv ^ s) (R174). -/
def execEqvI (d : Reg) (m : Imm) (s : State) : Result := logicInstr .eqv false d (.imm m) s

/-- KEQV: r = ~(dv ^ s), the result cascaded (R174, R131). -/
def execKeqv (d : Reg) (r : Reg) (s : State) : Result := logicInstr .eqv true d (.reg r) s

/-- KEQV#: r = ~(dv ^ s), the result cascaded (R174, R131). -/
def execKeqvI (d : Reg) (m : Imm) (s : State) : Result := logicInstr .eqv true d (.imm m) s

/-- AND: r = dv & s (R175). -/
def execAnd (d : Reg) (r : Reg) (s : State) : Result := logicInstr .and false d (.reg r) s

/-- AND#: r = dv & s (R175). -/
def execAndI (d : Reg) (m : Imm) (s : State) : Result := logicInstr .and false d (.imm m) s

/-- KAND: r = dv & s, the result cascaded (R175, R131). -/
def execKand (d : Reg) (r : Reg) (s : State) : Result := logicInstr .and true d (.reg r) s

/-- KAND#: r = dv & s, the result cascaded (R175, R131). -/
def execKandI (d : Reg) (m : Imm) (s : State) : Result := logicInstr .and true d (.imm m) s

/-- ANI: r = ~dv & s (R176). -/
def execAni (d : Reg) (r : Reg) (s : State) : Result := logicInstr .ani false d (.reg r) s

/-- ANI#: r = ~dv & s (R176). -/
def execAniI (d : Reg) (m : Imm) (s : State) : Result := logicInstr .ani false d (.imm m) s

/-- KANI: r = ~dv & s, the result cascaded (R176, R131). -/
def execKani (d : Reg) (r : Reg) (s : State) : Result := logicInstr .ani true d (.reg r) s

/-- KANI#: r = ~dv & s, the result cascaded (R176, R131). -/
def execKaniI (d : Reg) (m : Imm) (s : State) : Result := logicInstr .ani true d (.imm m) s

/-- NND: r = ~(dv & s) (R177). -/
def execNnd (d : Reg) (r : Reg) (s : State) : Result := logicInstr .nnd false d (.reg r) s

/-- NND#: r = ~(dv & s) (R177). -/
def execNndI (d : Reg) (m : Imm) (s : State) : Result := logicInstr .nnd false d (.imm m) s

/-- KNND: r = ~(dv & s), the result cascaded (R177, R131). -/
def execKnnd (d : Reg) (r : Reg) (s : State) : Result := logicInstr .nnd true d (.reg r) s

/-- KNND#: r = ~(dv & s), the result cascaded (R177, R131). -/
def execKnndI (d : Reg) (m : Imm) (s : State) : Result := logicInstr .nnd true d (.imm m) s

/-- NAI: r = ~(~dv & s) (R178). -/
def execNai (d : Reg) (r : Reg) (s : State) : Result := logicInstr .nai false d (.reg r) s

/-- NAI#: r = ~(~dv & s) (R178). -/
def execNaiI (d : Reg) (m : Imm) (s : State) : Result := logicInstr .nai false d (.imm m) s

/-- KNAI: r = ~(~dv & s), the result cascaded (R178, R131). -/
def execKnai (d : Reg) (r : Reg) (s : State) : Result := logicInstr .nai true d (.reg r) s

/-- KNAI#: r = ~(~dv & s), the result cascaded (R178, R131). -/
def execKnaiI (d : Reg) (m : Imm) (s : State) : Result := logicInstr .nai true d (.imm m) s

end Sys2Proof.Machine
end

