-- ==== Sys2Proof/Machine/Math.lean ====
section
/-! DEFINITION. The meanings of the MATH group (41_math_cascade.md), one definition per instruction over `mathInstr`. -/

namespace Sys2Proof.Machine

/-- MOV: r = s (R123). -/
def execMov (d : Reg) (r : Reg) (s : State) : Result := mathInstr .mov false d (.reg r) s

/-- MOV#: r = s (R123). -/
def execMovI (d : Reg) (m : Imm) (s : State) : Result := mathInstr .mov false d (.imm m) s

/-- KMOV: r = s, the result cascaded (R123, R131). -/
def execKmov (d : Reg) (r : Reg) (s : State) : Result := mathInstr .mov true d (.reg r) s

/-- KMOV#: r = s, the result cascaded (R123, R131). -/
def execKmovI (d : Reg) (m : Imm) (s : State) : Result := mathInstr .mov true d (.imm m) s

/-- INC: r = s + 1 (R124). -/
def execInc (d : Reg) (r : Reg) (s : State) : Result := mathInstr .inc false d (.reg r) s

/-- INC#: r = s + 1 (R124). -/
def execIncI (d : Reg) (m : Imm) (s : State) : Result := mathInstr .inc false d (.imm m) s

/-- KINC: r = s + 1, the result cascaded (R124, R131). -/
def execKinc (d : Reg) (r : Reg) (s : State) : Result := mathInstr .inc true d (.reg r) s

/-- KINC#: r = s + 1, the result cascaded (R124, R131). -/
def execKincI (d : Reg) (m : Imm) (s : State) : Result := mathInstr .inc true d (.imm m) s

/-- NOT: r = ~s (R125). -/
def execNot (d : Reg) (r : Reg) (s : State) : Result := mathInstr .not false d (.reg r) s

/-- NOT#: r = ~s (R125). -/
def execNotI (d : Reg) (m : Imm) (s : State) : Result := mathInstr .not false d (.imm m) s

/-- KNOT: r = ~s, the result cascaded (R125, R131). -/
def execKnot (d : Reg) (r : Reg) (s : State) : Result := mathInstr .not true d (.reg r) s

/-- KNOT#: r = ~s, the result cascaded (R125, R131). -/
def execKnotI (d : Reg) (m : Imm) (s : State) : Result := mathInstr .not true d (.imm m) s

/-- NEG: r = ~s + 1 (R126). -/
def execNeg (d : Reg) (r : Reg) (s : State) : Result := mathInstr .neg false d (.reg r) s

/-- NEG#: r = ~s + 1 (R126). -/
def execNegI (d : Reg) (m : Imm) (s : State) : Result := mathInstr .neg false d (.imm m) s

/-- KNEG: r = ~s + 1, the result cascaded (R126, R131). -/
def execKneg (d : Reg) (r : Reg) (s : State) : Result := mathInstr .neg true d (.reg r) s

/-- KNEG#: r = ~s + 1, the result cascaded (R126, R131). -/
def execKnegI (d : Reg) (m : Imm) (s : State) : Result := mathInstr .neg true d (.imm m) s

/-- ADD: r = dv + s (R127). -/
def execAdd (d : Reg) (r : Reg) (s : State) : Result := mathInstr .add false d (.reg r) s

/-- ADD#: r = dv + s (R127). -/
def execAddI (d : Reg) (m : Imm) (s : State) : Result := mathInstr .add false d (.imm m) s

/-- KADD: r = dv + s, the result cascaded (R127, R131). -/
def execKadd (d : Reg) (r : Reg) (s : State) : Result := mathInstr .add true d (.reg r) s

/-- KADD#: r = dv + s, the result cascaded (R127, R131). -/
def execKaddI (d : Reg) (m : Imm) (s : State) : Result := mathInstr .add true d (.imm m) s

/-- ADC: r = dv + s + C (R128). -/
def execAdc (d : Reg) (r : Reg) (s : State) : Result := mathInstr .adc false d (.reg r) s

/-- ADC#: r = dv + s + C (R128). -/
def execAdcI (d : Reg) (m : Imm) (s : State) : Result := mathInstr .adc false d (.imm m) s

/-- KADC: r = dv + s + C, the result cascaded (R128, R131). -/
def execKadc (d : Reg) (r : Reg) (s : State) : Result := mathInstr .adc true d (.reg r) s

/-- KADC#: r = dv + s + C, the result cascaded (R128, R131). -/
def execKadcI (d : Reg) (m : Imm) (s : State) : Result := mathInstr .adc true d (.imm m) s

/-- SBB: r = dv + ~s + C (R129). -/
def execSbb (d : Reg) (r : Reg) (s : State) : Result := mathInstr .sbb false d (.reg r) s

/-- SBB#: r = dv + ~s + C (R129). -/
def execSbbI (d : Reg) (m : Imm) (s : State) : Result := mathInstr .sbb false d (.imm m) s

/-- KSBB: r = dv + ~s + C, the result cascaded (R129, R131). -/
def execKsbb (d : Reg) (r : Reg) (s : State) : Result := mathInstr .sbb true d (.reg r) s

/-- KSBB#: r = dv + ~s + C, the result cascaded (R129, R131). -/
def execKsbbI (d : Reg) (m : Imm) (s : State) : Result := mathInstr .sbb true d (.imm m) s

/-- SUB: r = dv + ~s + 1 (R130). -/
def execSub (d : Reg) (r : Reg) (s : State) : Result := mathInstr .sub false d (.reg r) s

/-- SUB#: r = dv + ~s + 1 (R130). -/
def execSubI (d : Reg) (m : Imm) (s : State) : Result := mathInstr .sub false d (.imm m) s

/-- KSUB: r = dv + ~s + 1, the result cascaded (R130, R131). -/
def execKsub (d : Reg) (r : Reg) (s : State) : Result := mathInstr .sub true d (.reg r) s

/-- KSUB#: r = dv + ~s + 1, the result cascaded (R130, R131). -/
def execKsubI (d : Reg) (m : Imm) (s : State) : Result := mathInstr .sub true d (.imm m) s

end Sys2Proof.Machine
end

