-- ==== Sys2Proof/Machine/Shift.lean ====
section
/-! DEFINITION. The meanings of the SHIFT group (42_shift.md), one definition per instruction over `shiftInstr`. -/

namespace Sys2Proof.Machine

/-- SHR: logical shift right (R151). -/
def execShr (d : Reg) (r : Reg) (s : State) : Result := shiftInstr .shr false d (.reg r) s

/-- SHR#: logical shift right (R151). -/
def execShrI (d : Reg) (m : Imm) (s : State) : Result := shiftInstr .shr false d (.imm m) s

/-- KSHR: logical shift right, the result cascaded (R151, R131). -/
def execKshr (d : Reg) (r : Reg) (s : State) : Result := shiftInstr .shr true d (.reg r) s

/-- KSHR#: logical shift right, the result cascaded (R151, R131). -/
def execKshrI (d : Reg) (m : Imm) (s : State) : Result := shiftInstr .shr true d (.imm m) s

/-- SHL: shift left (R152). -/
def execShl (d : Reg) (r : Reg) (s : State) : Result := shiftInstr .shl false d (.reg r) s

/-- SHL#: shift left (R152). -/
def execShlI (d : Reg) (m : Imm) (s : State) : Result := shiftInstr .shl false d (.imm m) s

/-- KSHL: shift left, the result cascaded (R152, R131). -/
def execKshl (d : Reg) (r : Reg) (s : State) : Result := shiftInstr .shl true d (.reg r) s

/-- KSHL#: shift left, the result cascaded (R152, R131). -/
def execKshlI (d : Reg) (m : Imm) (s : State) : Result := shiftInstr .shl true d (.imm m) s

/-- ASR: arithmetic shift right (R153). -/
def execAsr (d : Reg) (r : Reg) (s : State) : Result := shiftInstr .asr false d (.reg r) s

/-- ASR#: arithmetic shift right (R153). -/
def execAsrI (d : Reg) (m : Imm) (s : State) : Result := shiftInstr .asr false d (.imm m) s

/-- KASR: arithmetic shift right, the result cascaded (R153, R131). -/
def execKasr (d : Reg) (r : Reg) (s : State) : Result := shiftInstr .asr true d (.reg r) s

/-- KASR#: arithmetic shift right, the result cascaded (R153, R131). -/
def execKasrI (d : Reg) (m : Imm) (s : State) : Result := shiftInstr .asr true d (.imm m) s

/-- ROT: rotate left (R154). -/
def execRot (d : Reg) (r : Reg) (s : State) : Result := shiftInstr .rot false d (.reg r) s

/-- ROT#: rotate left (R154). -/
def execRotI (d : Reg) (m : Imm) (s : State) : Result := shiftInstr .rot false d (.imm m) s

/-- KROT: rotate left, the result cascaded (R154, R131). -/
def execKrot (d : Reg) (r : Reg) (s : State) : Result := shiftInstr .rot true d (.reg r) s

/-- KROT#: rotate left, the result cascaded (R154, R131). -/
def execKrotI (d : Reg) (m : Imm) (s : State) : Result := shiftInstr .rot true d (.imm m) s

/-- DIV: unsigned divide (R155). -/
def execDiv (d : Reg) (r : Reg) (s : State) : Result := shiftInstr .div false d (.reg r) s

/-- DIV#: unsigned divide (R155). -/
def execDivI (d : Reg) (m : Imm) (s : State) : Result := shiftInstr .div false d (.imm m) s

/-- KDIV: unsigned divide, the result cascaded (R155, R131). -/
def execKdiv (d : Reg) (r : Reg) (s : State) : Result := shiftInstr .div true d (.reg r) s

/-- KDIV#: unsigned divide, the result cascaded (R155, R131). -/
def execKdivI (d : Reg) (m : Imm) (s : State) : Result := shiftInstr .div true d (.imm m) s

/-- MUL: unsigned multiply (R156). -/
def execMul (d : Reg) (r : Reg) (s : State) : Result := shiftInstr .mul false d (.reg r) s

/-- MUL#: unsigned multiply (R156). -/
def execMulI (d : Reg) (m : Imm) (s : State) : Result := shiftInstr .mul false d (.imm m) s

/-- KMUL: unsigned multiply, the result cascaded (R156, R131). -/
def execKmul (d : Reg) (r : Reg) (s : State) : Result := shiftInstr .mul true d (.reg r) s

/-- KMUL#: unsigned multiply, the result cascaded (R156, R131). -/
def execKmulI (d : Reg) (m : Imm) (s : State) : Result := shiftInstr .mul true d (.imm m) s

/-- DVS: signed divide (R157). -/
def execDvs (d : Reg) (r : Reg) (s : State) : Result := shiftInstr .dvs false d (.reg r) s

/-- DVS#: signed divide (R157). -/
def execDvsI (d : Reg) (m : Imm) (s : State) : Result := shiftInstr .dvs false d (.imm m) s

/-- KDVS: signed divide, the result cascaded (R157, R131). -/
def execKdvs (d : Reg) (r : Reg) (s : State) : Result := shiftInstr .dvs true d (.reg r) s

/-- KDVS#: signed divide, the result cascaded (R157, R131). -/
def execKdvsI (d : Reg) (m : Imm) (s : State) : Result := shiftInstr .dvs true d (.imm m) s

/-- MLS: signed multiply (R158). -/
def execMls (d : Reg) (r : Reg) (s : State) : Result := shiftInstr .mls false d (.reg r) s

/-- MLS#: signed multiply (R158). -/
def execMlsI (d : Reg) (m : Imm) (s : State) : Result := shiftInstr .mls false d (.imm m) s

/-- KMLS: signed multiply, the result cascaded (R158, R131). -/
def execKmls (d : Reg) (r : Reg) (s : State) : Result := shiftInstr .mls true d (.reg r) s

/-- KMLS#: signed multiply, the result cascaded (R158, R131). -/
def execKmlsI (d : Reg) (m : Imm) (s : State) : Result := shiftInstr .mls true d (.imm m) s

end Sys2Proof.Machine
end

