-- ==== Sys2Proof/Machine/Dispatch.lean ====
section
/-! DEFINITION. The meaning of every instruction, one arm per constructor. It runs for the task `s.cur`, with the skip
bits already shifted and the incoming cascade in `s.cascValid`. -/

namespace Sys2Proof.Machine

def exec (i : Instr) (s : State) : Host.Outcome State Fault Refusal :=
  match i with
  | .skip c m => Sys2Proof.Machine.execSkip c m s
  | .branch c off => Sys2Proof.Machine.execBranch c off s
  | .mov d r => Sys2Proof.Machine.execMov d r s
  | .movI d m => Sys2Proof.Machine.execMovI d m s
  | .kmov d r => Sys2Proof.Machine.execKmov d r s
  | .kmovI d m => Sys2Proof.Machine.execKmovI d m s
  | .inc d r => Sys2Proof.Machine.execInc d r s
  | .incI d m => Sys2Proof.Machine.execIncI d m s
  | .kinc d r => Sys2Proof.Machine.execKinc d r s
  | .kincI d m => Sys2Proof.Machine.execKincI d m s
  | .not d r => Sys2Proof.Machine.execNot d r s
  | .notI d m => Sys2Proof.Machine.execNotI d m s
  | .knot d r => Sys2Proof.Machine.execKnot d r s
  | .knotI d m => Sys2Proof.Machine.execKnotI d m s
  | .neg d r => Sys2Proof.Machine.execNeg d r s
  | .negI d m => Sys2Proof.Machine.execNegI d m s
  | .kneg d r => Sys2Proof.Machine.execKneg d r s
  | .knegI d m => Sys2Proof.Machine.execKnegI d m s
  | .add d r => Sys2Proof.Machine.execAdd d r s
  | .addI d m => Sys2Proof.Machine.execAddI d m s
  | .kadd d r => Sys2Proof.Machine.execKadd d r s
  | .kaddI d m => Sys2Proof.Machine.execKaddI d m s
  | .adc d r => Sys2Proof.Machine.execAdc d r s
  | .adcI d m => Sys2Proof.Machine.execAdcI d m s
  | .kadc d r => Sys2Proof.Machine.execKadc d r s
  | .kadcI d m => Sys2Proof.Machine.execKadcI d m s
  | .sbb d r => Sys2Proof.Machine.execSbb d r s
  | .sbbI d m => Sys2Proof.Machine.execSbbI d m s
  | .ksbb d r => Sys2Proof.Machine.execKsbb d r s
  | .ksbbI d m => Sys2Proof.Machine.execKsbbI d m s
  | .sub d r => Sys2Proof.Machine.execSub d r s
  | .subI d m => Sys2Proof.Machine.execSubI d m s
  | .ksub d r => Sys2Proof.Machine.execKsub d r s
  | .ksubI d m => Sys2Proof.Machine.execKsubI d m s
  | .shr d r => Sys2Proof.Machine.execShr d r s
  | .shrI d m => Sys2Proof.Machine.execShrI d m s
  | .kshr d r => Sys2Proof.Machine.execKshr d r s
  | .kshrI d m => Sys2Proof.Machine.execKshrI d m s
  | .shl d r => Sys2Proof.Machine.execShl d r s
  | .shlI d m => Sys2Proof.Machine.execShlI d m s
  | .kshl d r => Sys2Proof.Machine.execKshl d r s
  | .kshlI d m => Sys2Proof.Machine.execKshlI d m s
  | .asr d r => Sys2Proof.Machine.execAsr d r s
  | .asrI d m => Sys2Proof.Machine.execAsrI d m s
  | .kasr d r => Sys2Proof.Machine.execKasr d r s
  | .kasrI d m => Sys2Proof.Machine.execKasrI d m s
  | .rot d r => Sys2Proof.Machine.execRot d r s
  | .rotI d m => Sys2Proof.Machine.execRotI d m s
  | .krot d r => Sys2Proof.Machine.execKrot d r s
  | .krotI d m => Sys2Proof.Machine.execKrotI d m s
  | .div d r => Sys2Proof.Machine.execDiv d r s
  | .divI d m => Sys2Proof.Machine.execDivI d m s
  | .kdiv d r => Sys2Proof.Machine.execKdiv d r s
  | .kdivI d m => Sys2Proof.Machine.execKdivI d m s
  | .mul d r => Sys2Proof.Machine.execMul d r s
  | .mulI d m => Sys2Proof.Machine.execMulI d m s
  | .kmul d r => Sys2Proof.Machine.execKmul d r s
  | .kmulI d m => Sys2Proof.Machine.execKmulI d m s
  | .dvs d r => Sys2Proof.Machine.execDvs d r s
  | .dvsI d m => Sys2Proof.Machine.execDvsI d m s
  | .kdvs d r => Sys2Proof.Machine.execKdvs d r s
  | .kdvsI d m => Sys2Proof.Machine.execKdvsI d m s
  | .mls d r => Sys2Proof.Machine.execMls d r s
  | .mlsI d m => Sys2Proof.Machine.execMlsI d m s
  | .kmls d r => Sys2Proof.Machine.execKmls d r s
  | .kmlsI d m => Sys2Proof.Machine.execKmlsI d m s
  | .ior d r => Sys2Proof.Machine.execIor d r s
  | .iorI d m => Sys2Proof.Machine.execIorI d m s
  | .kior d r => Sys2Proof.Machine.execKior d r s
  | .kiorI d m => Sys2Proof.Machine.execKiorI d m s
  | .xor d r => Sys2Proof.Machine.execXor d r s
  | .xorI d m => Sys2Proof.Machine.execXorI d m s
  | .kxor d r => Sys2Proof.Machine.execKxor d r s
  | .kxorI d m => Sys2Proof.Machine.execKxorI d m s
  | .nor d r => Sys2Proof.Machine.execNor d r s
  | .norI d m => Sys2Proof.Machine.execNorI d m s
  | .knor d r => Sys2Proof.Machine.execKnor d r s
  | .knorI d m => Sys2Proof.Machine.execKnorI d m s
  | .eqv d r => Sys2Proof.Machine.execEqv d r s
  | .eqvI d m => Sys2Proof.Machine.execEqvI d m s
  | .keqv d r => Sys2Proof.Machine.execKeqv d r s
  | .keqvI d m => Sys2Proof.Machine.execKeqvI d m s
  | .and d r => Sys2Proof.Machine.execAnd d r s
  | .andI d m => Sys2Proof.Machine.execAndI d m s
  | .kand d r => Sys2Proof.Machine.execKand d r s
  | .kandI d m => Sys2Proof.Machine.execKandI d m s
  | .ani d r => Sys2Proof.Machine.execAni d r s
  | .aniI d m => Sys2Proof.Machine.execAniI d m s
  | .kani d r => Sys2Proof.Machine.execKani d r s
  | .kaniI d m => Sys2Proof.Machine.execKaniI d m s
  | .nnd d r => Sys2Proof.Machine.execNnd d r s
  | .nndI d m => Sys2Proof.Machine.execNndI d m s
  | .knnd d r => Sys2Proof.Machine.execKnnd d r s
  | .knndI d m => Sys2Proof.Machine.execKnndI d m s
  | .nai d r => Sys2Proof.Machine.execNai d r s
  | .naiI d m => Sys2Proof.Machine.execNaiI d m s
  | .knai d r => Sys2Proof.Machine.execKnai d r s
  | .knaiI d m => Sys2Proof.Machine.execKnaiI d m s
  | .jumpl b l o => Sys2Proof.Machine.execJumpl b l o s
  | .fadd b d => Sys2Proof.Machine.execFadd b d s
  | .fsub b d => Sys2Proof.Machine.execFsub b d s
  | .fmul b d => Sys2Proof.Machine.execFmul b d s
  | .fdiv b d => Sys2Proof.Machine.execFdiv b d s
  | .stk b d => Sys2Proof.Machine.execStk b d s
  | .rtn b d => Sys2Proof.Machine.execRtn b d s
  | .extReserved6 b d => Sys2Proof.Machine.execExtReserved6 b d s
  | .extReserved7 b d => Sys2Proof.Machine.execExtReserved7 b d s
  | .extReserved8 b d => Sys2Proof.Machine.execExtReserved8 b d s
  | .extReserved9 b d => Sys2Proof.Machine.execExtReserved9 b d s
  | .extReservedA b d => Sys2Proof.Machine.execExtReservedA b d s
  | .extReservedB b d => Sys2Proof.Machine.execExtReservedB b d s
  | .tadd b d => Sys2Proof.Machine.execTadd b d s
  | .tsub b d => Sys2Proof.Machine.execTsub b d s
  | .ext16 b d e => Sys2Proof.Machine.execExt16 b d e s
  | .jumplI b l e1 e2 => Sys2Proof.Machine.execJumplI b l e1 e2 s
  | .stb b r o => Sys2Proof.Machine.execStb b r o s
  | .stbI b r m => Sys2Proof.Machine.execStbI b r m s
  | .ld b r o => Sys2Proof.Machine.execLd b r o s
  | .ldI b r m => Sys2Proof.Machine.execLdI b r m s
  | .st b r o => Sys2Proof.Machine.execSt b r o s
  | .stI b r m => Sys2Proof.Machine.execStI b r m s

end Sys2Proof.Machine
end

