-- ==== Sys2Proof/WellFormed.lean ====
section
/-! DEFINITION. Which terms of the syntax are instructions: the short immediate has only the values 0 to 13
(30_encoding.md rule R76, 90_conflicts.md C10). Every other field may hold any value (rule R81). -/

namespace Sys2Proof

/-- "When an immediate value of 14 (0xE) or 15 (0xF) appears in the source field, the actual value is taken
from the following word" (rule R76): 14 and 15 are no short immediates. -/
def Imm.wellFormed : Imm → Bool
  | .short v => decide (v.toNat ≤ 13)
  | .word _ => true
  | .long _ _ => true

/-- An instruction some encoding stands for. -/
def Instr.wellFormed : Instr → Bool
  | .skip _ _ => true
  | .branch _ _ => true
  | .mov _ _ => true
  | .movI _ m => m.wellFormed
  | .kmov _ _ => true
  | .kmovI _ m => m.wellFormed
  | .inc _ _ => true
  | .incI _ m => m.wellFormed
  | .kinc _ _ => true
  | .kincI _ m => m.wellFormed
  | .not _ _ => true
  | .notI _ m => m.wellFormed
  | .knot _ _ => true
  | .knotI _ m => m.wellFormed
  | .neg _ _ => true
  | .negI _ m => m.wellFormed
  | .kneg _ _ => true
  | .knegI _ m => m.wellFormed
  | .add _ _ => true
  | .addI _ m => m.wellFormed
  | .kadd _ _ => true
  | .kaddI _ m => m.wellFormed
  | .adc _ _ => true
  | .adcI _ m => m.wellFormed
  | .kadc _ _ => true
  | .kadcI _ m => m.wellFormed
  | .sbb _ _ => true
  | .sbbI _ m => m.wellFormed
  | .ksbb _ _ => true
  | .ksbbI _ m => m.wellFormed
  | .sub _ _ => true
  | .subI _ m => m.wellFormed
  | .ksub _ _ => true
  | .ksubI _ m => m.wellFormed
  | .shr _ _ => true
  | .shrI _ m => m.wellFormed
  | .kshr _ _ => true
  | .kshrI _ m => m.wellFormed
  | .shl _ _ => true
  | .shlI _ m => m.wellFormed
  | .kshl _ _ => true
  | .kshlI _ m => m.wellFormed
  | .asr _ _ => true
  | .asrI _ m => m.wellFormed
  | .kasr _ _ => true
  | .kasrI _ m => m.wellFormed
  | .rot _ _ => true
  | .rotI _ m => m.wellFormed
  | .krot _ _ => true
  | .krotI _ m => m.wellFormed
  | .div _ _ => true
  | .divI _ m => m.wellFormed
  | .kdiv _ _ => true
  | .kdivI _ m => m.wellFormed
  | .mul _ _ => true
  | .mulI _ m => m.wellFormed
  | .kmul _ _ => true
  | .kmulI _ m => m.wellFormed
  | .dvs _ _ => true
  | .dvsI _ m => m.wellFormed
  | .kdvs _ _ => true
  | .kdvsI _ m => m.wellFormed
  | .mls _ _ => true
  | .mlsI _ m => m.wellFormed
  | .kmls _ _ => true
  | .kmlsI _ m => m.wellFormed
  | .ior _ _ => true
  | .iorI _ m => m.wellFormed
  | .kior _ _ => true
  | .kiorI _ m => m.wellFormed
  | .xor _ _ => true
  | .xorI _ m => m.wellFormed
  | .kxor _ _ => true
  | .kxorI _ m => m.wellFormed
  | .nor _ _ => true
  | .norI _ m => m.wellFormed
  | .knor _ _ => true
  | .knorI _ m => m.wellFormed
  | .eqv _ _ => true
  | .eqvI _ m => m.wellFormed
  | .keqv _ _ => true
  | .keqvI _ m => m.wellFormed
  | .and _ _ => true
  | .andI _ m => m.wellFormed
  | .kand _ _ => true
  | .kandI _ m => m.wellFormed
  | .ani _ _ => true
  | .aniI _ m => m.wellFormed
  | .kani _ _ => true
  | .kaniI _ m => m.wellFormed
  | .nnd _ _ => true
  | .nndI _ m => m.wellFormed
  | .knnd _ _ => true
  | .knndI _ m => m.wellFormed
  | .nai _ _ => true
  | .naiI _ m => m.wellFormed
  | .knai _ _ => true
  | .knaiI _ m => m.wellFormed
  | .jumpl _ _ _ => true
  | .fadd _ _ => true
  | .fsub _ _ => true
  | .fmul _ _ => true
  | .fdiv _ _ => true
  | .stk _ _ => true
  | .rtn _ _ => true
  | .extReserved6 _ _ => true
  | .extReserved7 _ _ => true
  | .extReserved8 _ _ => true
  | .extReserved9 _ _ => true
  | .extReservedA _ _ => true
  | .extReservedB _ _ => true
  | .tadd _ _ => true
  | .tsub _ _ => true
  | .ext16 _ _ _ => true
  | .jumplI _ _ _ _ => true
  | .stb _ _ _ => true
  | .stbI _ _ m => m.wellFormed
  | .ld _ _ _ => true
  | .ldI _ _ m => m.wellFormed
  | .st _ _ _ => true
  | .stI _ _ m => m.wellFormed

end Sys2Proof
end

