-- ==== Sys2Proof/Decode.lean ====
section
/-! DEFINITION. Encoding and decoding (30_encoding.md). The unit is the 16 bit instruction word, fetched whole
(20_memory.md rule R47: byte order does not affect decoding). Every first word is some instruction
(rule R81), so the decoder refuses only a sequence that ends before its extension words do. -/

namespace Sys2Proof

/-- Why a sequence of words is no instruction. -/
inductive DecodeError
  /-- there is no first word -/
  | noFirstWord
  /-- the first word calls for more extension words than follow it (rule R76) -/
  | extensionMissing
  deriving DecidableEq, Repr

/-! ## Fields of a word -/

/-- The four bit field `w[4n+3 : 4n]`. -/
def nibble (w : Word16) (n : Nat) : BitVec 4 := w.extractLsb' (4 * n) 4

/-- The word of four four-bit fields, most significant first. -/
def wordOf (n3 n2 n1 n0 : BitVec 4) : Word16 := n3 ++ n2 ++ n1 ++ n0

/-- The length of an instruction in bytes, from its first word alone (rule R77). -/
def lengthOf (w : Word16) : Nat :=
  if nibble w 3 = 0 ∨ nibble w 3 = 1 then 2            -- SKIP, BRANCH: no # bit
  else if w.getLsbD 12 = false then 2
  else if nibble w 0 = 14 then 4
  else if nibble w 0 = 15 then 6
  else 2

/-- The condition of `w[11:8]`: the test in its upper three bits, the polarity in its lowest (rule R100). -/
def condOf (f : BitVec 4) : Cond :=
  match f.getLsbD 3, f.getLsbD 2, f.getLsbD 1 with
  | false, false, false => ⟨.zero, f.getLsbD 0⟩
  | false, false, true => ⟨.carry, f.getLsbD 0⟩
  | false, true, false => ⟨.negative, f.getLsbD 0⟩
  | false, true, true => ⟨.overflow, f.getLsbD 0⟩
  | true, false, false => ⟨.less, f.getLsbD 0⟩
  | true, false, true => ⟨.lessOrEqual, f.getLsbD 0⟩
  | true, true, false => ⟨.lowerOrSame, f.getLsbD 0⟩
  | true, true, true => ⟨.always, f.getLsbD 0⟩

/-- The field `w[11:8]` of a condition (rules R100, R108). -/
def condField (c : Cond) : BitVec 4 :=
  (match c.test with
    | .zero => 0#3
    | .carry => 1#3
    | .negative => 2#3
    | .overflow => 3#3
    | .less => 4#3
    | .lessOrEqual => 5#3
    | .lowerOrSame => 6#3
    | .always => 7#3) ++ BitVec.ofBool c.polarity

/-! ## The decoder -/

/-- The MATH instruction whose bits `w[11:8]` are K A N C (rules R73, R79). -/
def mathReg (f : BitVec 4) (d : Reg) (r : Reg) : Instr :=
  match f.getLsbD 3, f.getLsbD 2, f.getLsbD 1, f.getLsbD 0 with
  | false, false, false, false => .mov d r
  | false, false, false, true => .inc d r
  | false, false, true, false => .not d r
  | false, false, true, true => .neg d r
  | false, true, false, false => .add d r
  | false, true, false, true => .adc d r
  | false, true, true, false => .sbb d r
  | false, true, true, true => .sub d r
  | true, false, false, false => .kmov d r
  | true, false, false, true => .kinc d r
  | true, false, true, false => .knot d r
  | true, false, true, true => .kneg d r
  | true, true, false, false => .kadd d r
  | true, true, false, true => .kadc d r
  | true, true, true, false => .ksbb d r
  | true, true, true, true => .ksub d r

/-- The MATH# instruction whose bits `w[11:8]` are K A N C (rules R73, R79). -/
def mathImm (f : BitVec 4) (d : Reg) (m : Imm) : Instr :=
  match f.getLsbD 3, f.getLsbD 2, f.getLsbD 1, f.getLsbD 0 with
  | false, false, false, false => .movI d m
  | false, false, false, true => .incI d m
  | false, false, true, false => .notI d m
  | false, false, true, true => .negI d m
  | false, true, false, false => .addI d m
  | false, true, false, true => .adcI d m
  | false, true, true, false => .sbbI d m
  | false, true, true, true => .subI d m
  | true, false, false, false => .kmovI d m
  | true, false, false, true => .kincI d m
  | true, false, true, false => .knotI d m
  | true, false, true, true => .knegI d m
  | true, true, false, false => .kaddI d m
  | true, true, false, true => .kadcI d m
  | true, true, true, false => .ksbbI d m
  | true, true, true, true => .ksubI d m

/-- The SHIFT instruction whose bits `w[11:8]` are K M S L (rules R73, R79). -/
def shiftReg (f : BitVec 4) (d : Reg) (r : Reg) : Instr :=
  match f.getLsbD 3, f.getLsbD 2, f.getLsbD 1, f.getLsbD 0 with
  | false, false, false, false => .shr d r
  | false, false, false, true => .shl d r
  | false, false, true, false => .asr d r
  | false, false, true, true => .rot d r
  | false, true, false, false => .div d r
  | false, true, false, true => .mul d r
  | false, true, true, false => .dvs d r
  | false, true, true, true => .mls d r
  | true, false, false, false => .kshr d r
  | true, false, false, true => .kshl d r
  | true, false, true, false => .kasr d r
  | true, false, true, true => .krot d r
  | true, true, false, false => .kdiv d r
  | true, true, false, true => .kmul d r
  | true, true, true, false => .kdvs d r
  | true, true, true, true => .kmls d r

/-- The SHIFT# instruction whose bits `w[11:8]` are K M S L (rules R73, R79). -/
def shiftImm (f : BitVec 4) (d : Reg) (m : Imm) : Instr :=
  match f.getLsbD 3, f.getLsbD 2, f.getLsbD 1, f.getLsbD 0 with
  | false, false, false, false => .shrI d m
  | false, false, false, true => .shlI d m
  | false, false, true, false => .asrI d m
  | false, false, true, true => .rotI d m
  | false, true, false, false => .divI d m
  | false, true, false, true => .mulI d m
  | false, true, true, false => .dvsI d m
  | false, true, true, true => .mlsI d m
  | true, false, false, false => .kshrI d m
  | true, false, false, true => .kshlI d m
  | true, false, true, false => .kasrI d m
  | true, false, true, true => .krotI d m
  | true, true, false, false => .kdivI d m
  | true, true, false, true => .kmulI d m
  | true, true, true, false => .kdvsI d m
  | true, true, true, true => .kmlsI d m

/-- The LOGIC instruction whose bits `w[11:8]` are K A N M (rules R73, R79). -/
def logicReg (f : BitVec 4) (d : Reg) (r : Reg) : Instr :=
  match f.getLsbD 3, f.getLsbD 2, f.getLsbD 1, f.getLsbD 0 with
  | false, false, false, false => .ior d r
  | false, false, false, true => .xor d r
  | false, false, true, false => .nor d r
  | false, false, true, true => .eqv d r
  | false, true, false, false => .and d r
  | false, true, false, true => .ani d r
  | false, true, true, false => .nnd d r
  | false, true, true, true => .nai d r
  | true, false, false, false => .kior d r
  | true, false, false, true => .kxor d r
  | true, false, true, false => .knor d r
  | true, false, true, true => .keqv d r
  | true, true, false, false => .kand d r
  | true, true, false, true => .kani d r
  | true, true, true, false => .knnd d r
  | true, true, true, true => .knai d r

/-- The LOGIC# instruction whose bits `w[11:8]` are K A N M (rules R73, R79). -/
def logicImm (f : BitVec 4) (d : Reg) (m : Imm) : Instr :=
  match f.getLsbD 3, f.getLsbD 2, f.getLsbD 1, f.getLsbD 0 with
  | false, false, false, false => .iorI d m
  | false, false, false, true => .xorI d m
  | false, false, true, false => .norI d m
  | false, false, true, true => .eqvI d m
  | false, true, false, false => .andI d m
  | false, true, false, true => .aniI d m
  | false, true, true, false => .nndI d m
  | false, true, true, true => .naiI d m
  | true, false, false, false => .kiorI d m
  | true, false, false, true => .kxorI d m
  | true, false, true, false => .knorI d m
  | true, false, true, true => .keqvI d m
  | true, true, false, false => .kandI d m
  | true, true, false, true => .kaniI d m
  | true, true, true, false => .knndI d m
  | true, true, true, true => .knaiI d m

/-- An instruction with an immediate: the field `w[3:0]` and the extension words it calls for (rule R76). -/
def withImm (field : BitVec 4) (rest : List Word16) (k : Imm → Instr) :
    Except DecodeError (Instr × List Word16) :=
  if field = 14 then
    match rest with
    | e :: rest => .ok (k (.word e), rest)
    | [] => .error .extensionMissing
  else if field = 15 then
    match rest with
    | e1 :: e2 :: rest => .ok (k (.long e1 e2), rest)
    | _ => .error .extensionMissing
  else .ok (k (.short field), rest)

/-- Group 9: the field `w[3:0]` is the opcode of an extended instruction unless it is 15 (rules R80, R218). -/
def extended (b d code : BitVec 4) (rest : List Word16) : Except DecodeError (Instr × List Word16) :=
  match code.getLsbD 3, code.getLsbD 2, code.getLsbD 1, code.getLsbD 0 with
  | false, false, false, false => .ok (.fadd b d, rest)
  | false, false, false, true => .ok (.fsub b d, rest)
  | false, false, true, false => .ok (.fmul b d, rest)
  | false, false, true, true => .ok (.fdiv b d, rest)
  | false, true, false, false => .ok (.stk b d, rest)
  | false, true, false, true => .ok (.rtn b d, rest)
  | false, true, true, false => .ok (.extReserved6 b d, rest)
  | false, true, true, true => .ok (.extReserved7 b d, rest)
  | true, false, false, false => .ok (.extReserved8 b d, rest)
  | true, false, false, true => .ok (.extReserved9 b d, rest)
  | true, false, true, false => .ok (.extReservedA b d, rest)
  | true, false, true, true => .ok (.extReservedB b d, rest)
  | true, true, false, false => .ok (.tadd b d, rest)
  | true, true, false, true => .ok (.tsub b d, rest)
  | true, true, true, false =>
    match rest with
    | e :: rest => .ok (.ext16 b d e, rest)
    | [] => .error .extensionMissing
  | true, true, true, true =>
    match rest with
    | e1 :: e2 :: rest => .ok (.jumplI b d e1 e2, rest)
    | _ => .error .extensionMissing

/-- The instruction at the head of a sequence of words, and the words after it: "The top four bits of the
instruction select between different groups" (rule R71), the fields are those of rules R72 to R74. -/
def decode : List Word16 → Except DecodeError (Instr × List Word16)
  | [] => .error .noFirstWord
  | w :: rest =>
    match w.getLsbD 15, w.getLsbD 14, w.getLsbD 13, w.getLsbD 12 with
    | false, false, false, false => .ok (.skip (condOf (nibble w 2)) (nibble w 1 ++ nibble w 0), rest)
    | false, false, false, true => .ok (.branch (condOf (nibble w 2)) (nibble w 1 ++ nibble w 0), rest)
    | false, false, true, false => .ok (mathReg (nibble w 2) (nibble w 1) (nibble w 0), rest)
    | false, false, true, true => withImm (nibble w 0) rest (mathImm (nibble w 2) (nibble w 1))
    | false, true, false, false => .ok (shiftReg (nibble w 2) (nibble w 1) (nibble w 0), rest)
    | false, true, false, true => withImm (nibble w 0) rest (shiftImm (nibble w 2) (nibble w 1))
    | false, true, true, false => .ok (logicReg (nibble w 2) (nibble w 1) (nibble w 0), rest)
    | false, true, true, true => withImm (nibble w 0) rest (logicImm (nibble w 2) (nibble w 1))
    | true, false, false, false => .ok (.jumpl (nibble w 2) (nibble w 1) (nibble w 0), rest)
    | true, false, false, true => extended (nibble w 2) (nibble w 1) (nibble w 0) rest
    | true, false, true, false => .ok (.stb (nibble w 2) (nibble w 1) (nibble w 0), rest)
    | true, false, true, true => withImm (nibble w 0) rest (.stbI (nibble w 2) (nibble w 1))
    | true, true, false, false => .ok (.ld (nibble w 2) (nibble w 1) (nibble w 0), rest)
    | true, true, false, true => withImm (nibble w 0) rest (.ldI (nibble w 2) (nibble w 1))
    | true, true, true, false => .ok (.st (nibble w 2) (nibble w 1) (nibble w 0), rest)
    | true, true, true, true => withImm (nibble w 0) rest (.stI (nibble w 2) (nibble w 1))

/-! ## The encoder -/

/-- The words of a `#` instruction: the first word with the immediate's field, then its extension words (rule R76). -/
def immWords (n3 n2 n1 : BitVec 4) : Imm → List Word16
  | .short v => [wordOf n3 n2 n1 v]
  | .word e => [wordOf n3 n2 n1 14, e]
  | .long e1 e2 => [wordOf n3 n2 n1 15, e1, e2]

/-- The words of an instruction, first word first (rules R72 to R74, R79, R80). -/
def encode : Instr → List Word16
  | .skip c m => [wordOf 0 (condField c) (m.extractLsb' 4 4) (m.extractLsb' 0 4)]
  | .branch c off => [wordOf 1 (condField c) (off.extractLsb' 4 4) (off.extractLsb' 0 4)]
  | .mov d r => [wordOf 2 0 d r]
  | .movI d m => immWords 3 0 d m
  | .kmov d r => [wordOf 2 8 d r]
  | .kmovI d m => immWords 3 8 d m
  | .inc d r => [wordOf 2 1 d r]
  | .incI d m => immWords 3 1 d m
  | .kinc d r => [wordOf 2 9 d r]
  | .kincI d m => immWords 3 9 d m
  | .not d r => [wordOf 2 2 d r]
  | .notI d m => immWords 3 2 d m
  | .knot d r => [wordOf 2 10 d r]
  | .knotI d m => immWords 3 10 d m
  | .neg d r => [wordOf 2 3 d r]
  | .negI d m => immWords 3 3 d m
  | .kneg d r => [wordOf 2 11 d r]
  | .knegI d m => immWords 3 11 d m
  | .add d r => [wordOf 2 4 d r]
  | .addI d m => immWords 3 4 d m
  | .kadd d r => [wordOf 2 12 d r]
  | .kaddI d m => immWords 3 12 d m
  | .adc d r => [wordOf 2 5 d r]
  | .adcI d m => immWords 3 5 d m
  | .kadc d r => [wordOf 2 13 d r]
  | .kadcI d m => immWords 3 13 d m
  | .sbb d r => [wordOf 2 6 d r]
  | .sbbI d m => immWords 3 6 d m
  | .ksbb d r => [wordOf 2 14 d r]
  | .ksbbI d m => immWords 3 14 d m
  | .sub d r => [wordOf 2 7 d r]
  | .subI d m => immWords 3 7 d m
  | .ksub d r => [wordOf 2 15 d r]
  | .ksubI d m => immWords 3 15 d m
  | .shr d r => [wordOf 4 0 d r]
  | .shrI d m => immWords 5 0 d m
  | .kshr d r => [wordOf 4 8 d r]
  | .kshrI d m => immWords 5 8 d m
  | .shl d r => [wordOf 4 1 d r]
  | .shlI d m => immWords 5 1 d m
  | .kshl d r => [wordOf 4 9 d r]
  | .kshlI d m => immWords 5 9 d m
  | .asr d r => [wordOf 4 2 d r]
  | .asrI d m => immWords 5 2 d m
  | .kasr d r => [wordOf 4 10 d r]
  | .kasrI d m => immWords 5 10 d m
  | .rot d r => [wordOf 4 3 d r]
  | .rotI d m => immWords 5 3 d m
  | .krot d r => [wordOf 4 11 d r]
  | .krotI d m => immWords 5 11 d m
  | .div d r => [wordOf 4 4 d r]
  | .divI d m => immWords 5 4 d m
  | .kdiv d r => [wordOf 4 12 d r]
  | .kdivI d m => immWords 5 12 d m
  | .mul d r => [wordOf 4 5 d r]
  | .mulI d m => immWords 5 5 d m
  | .kmul d r => [wordOf 4 13 d r]
  | .kmulI d m => immWords 5 13 d m
  | .dvs d r => [wordOf 4 6 d r]
  | .dvsI d m => immWords 5 6 d m
  | .kdvs d r => [wordOf 4 14 d r]
  | .kdvsI d m => immWords 5 14 d m
  | .mls d r => [wordOf 4 7 d r]
  | .mlsI d m => immWords 5 7 d m
  | .kmls d r => [wordOf 4 15 d r]
  | .kmlsI d m => immWords 5 15 d m
  | .ior d r => [wordOf 6 0 d r]
  | .iorI d m => immWords 7 0 d m
  | .kior d r => [wordOf 6 8 d r]
  | .kiorI d m => immWords 7 8 d m
  | .xor d r => [wordOf 6 1 d r]
  | .xorI d m => immWords 7 1 d m
  | .kxor d r => [wordOf 6 9 d r]
  | .kxorI d m => immWords 7 9 d m
  | .nor d r => [wordOf 6 2 d r]
  | .norI d m => immWords 7 2 d m
  | .knor d r => [wordOf 6 10 d r]
  | .knorI d m => immWords 7 10 d m
  | .eqv d r => [wordOf 6 3 d r]
  | .eqvI d m => immWords 7 3 d m
  | .keqv d r => [wordOf 6 11 d r]
  | .keqvI d m => immWords 7 11 d m
  | .and d r => [wordOf 6 4 d r]
  | .andI d m => immWords 7 4 d m
  | .kand d r => [wordOf 6 12 d r]
  | .kandI d m => immWords 7 12 d m
  | .ani d r => [wordOf 6 5 d r]
  | .aniI d m => immWords 7 5 d m
  | .kani d r => [wordOf 6 13 d r]
  | .kaniI d m => immWords 7 13 d m
  | .nnd d r => [wordOf 6 6 d r]
  | .nndI d m => immWords 7 6 d m
  | .knnd d r => [wordOf 6 14 d r]
  | .knndI d m => immWords 7 14 d m
  | .nai d r => [wordOf 6 7 d r]
  | .naiI d m => immWords 7 7 d m
  | .knai d r => [wordOf 6 15 d r]
  | .knaiI d m => immWords 7 15 d m
  | .jumpl b l o => [wordOf 8 b l o]
  | .fadd b d => [wordOf 9 b d 0]
  | .fsub b d => [wordOf 9 b d 1]
  | .fmul b d => [wordOf 9 b d 2]
  | .fdiv b d => [wordOf 9 b d 3]
  | .stk b d => [wordOf 9 b d 4]
  | .rtn b d => [wordOf 9 b d 5]
  | .extReserved6 b d => [wordOf 9 b d 6]
  | .extReserved7 b d => [wordOf 9 b d 7]
  | .extReserved8 b d => [wordOf 9 b d 8]
  | .extReserved9 b d => [wordOf 9 b d 9]
  | .extReservedA b d => [wordOf 9 b d 10]
  | .extReservedB b d => [wordOf 9 b d 11]
  | .tadd b d => [wordOf 9 b d 12]
  | .tsub b d => [wordOf 9 b d 13]
  | .ext16 b d e => [wordOf 9 b d 14, e]
  | .jumplI b l e1 e2 => [wordOf 9 b l 15, e1, e2]
  | .stb b r o => [wordOf 10 b r o]
  | .stbI b r m => immWords 11 b r m
  | .ld b r o => [wordOf 12 b r o]
  | .ldI b r m => immWords 13 b r m
  | .st b r o => [wordOf 14 b r o]
  | .stI b r m => immWords 15 b r m

/-! ## The opcode table's numbering -/

/-- The `nbits` low bits of `w` as three 16 bit words, the first word in the low bits, zeros above `nbits`. -/
def tableWords (nbits w : Nat) : List Word16 :=
  let v := w % 2 ^ nbits
  [BitVec.ofNat 16 v, BitVec.ofNat 16 (v / 2 ^ 16), BitVec.ofNat 16 (v / 2 ^ 32)]

/-- The instruction the decoder reads from a row's bits, numbered as spec/opcode_table.json numbers them. -/
def decodeTableWord (nbits w : Nat) : Option Instr :=
  match decode (tableWords nbits w) with
  | .ok (i, _) => some i
  | .error _ => none

end Sys2Proof
end

