-- ==== Sys2Proof/Machine/Issue.lean ====
section
/-! DEFINITION. What stands around an instruction: the environment's moves of R bits, the choice of the running task
(60_exceptions.md rules R245 to R251), the fetch (20_memory.md rule R40) and steps 1 to 5 of the instruction step
(10_state.md rule R28). -/

namespace Sys2Proof.Machine

/-! ## The environment and the scheduler -/

/-- One R bit as the environment leaves it (rule R246). A task that stops being ready loses its turn: only "a task that
stays ready is eventually chosen" (R248). -/
def State.setReady (s : State) (m : ReadyMove) : State :=
  let t := s.tasks[m.task]
  { s with
    tasks := s.tasks.set m.task { t with stack := { t.stack with r := m.ready } }
    turns := if m.ready then s.turns else s.turns.set m.task none }

/-- The moves that arrive before this step: "moves of the environment, which may happen between any two steps" (R246). -/
def State.arrive (s : State) : State :=
  match s.env with
  | [] => s
  | ms :: rest => ms.foldl State.setReady { s with env := rest }

/-- The R bit of a task. -/
def State.ready (s : State) (t : TaskNo) : Bool := s.tasks[t].stack.r

/-- The hardware tasks, highest priority first (rule R251). -/
def hardwareTasks : List TaskNo := [15, 14, 13, 12, 11, 10, 9, 8]

/-- The software tasks, all of one priority (rule R245). -/
def softwareTasks : List TaskNo := [0, 1, 2, 3, 4, 5, 6, 7]

/-- The turn of a waiting software task: the one it has drawn, else one drawn now, a free value not before the present
draw (rule R248). -/
def State.turn (s : State) (t : TaskNo) : Nat := (s.turns[t]).getD (s.draws + Config.softwareWait s.draws t)

/-- The task with the earliest turn, the first of them where several have it. -/
def State.earliest (s : State) : List TaskNo → Option TaskNo
  | [] => none
  | t :: ts =>
    match s.earliest ts with
    | none => some t
    | some u => if s.turn t ≤ s.turn u then some t else some u

/-- Every task of a list keeps the turn it has. -/
def State.keepTurns (s : State) : List TaskNo → Vector (Option Nat) 16 → Vector (Option Nat) 16
  | [], v => v
  | t :: ts, v => s.keepTurns ts (v.set t (some (s.turn t)))

/-- The ready software tasks. -/
def State.softwareReady (s : State) : List TaskNo := softwareTasks.filter s.ready

/-- A ready software task takes its turn and the other ready ones wait on (rule R248): the turns passed over stand until
they come, so a task that stays ready is eventually chosen. -/
def State.takeTurn (s : State) (t : TaskNo) : State :=
  { s with cur := t, turns := (s.keepTurns s.softwareReady s.turns).set t none, draws := s.draws + 1 }

/-- The state with the running task chosen: directly after a cascade the same task whatever the R bits say (R249), else
the highest ready hardware task (R247), else the ready software task with the earliest turn
(R248), else nothing runs. -/
def State.schedule (s : State) : Option State :=
  if s.cascValid then some s
  else
    match hardwareTasks.find? s.ready with
    | some t => some { s with cur := t }
    | none =>
      match s.earliest s.softwareReady with
      | some t => some (s.takeTurn t)
      | none => none

/-! ## Fetch -/

/-- `IMem16(a)` (rule R40); nothing where the program text holds no word. -/
def State.fetchWord (s : State) (a : CodeAddr) : Option Word16 := cellRead s.imem a.toNat

/-- Up to `n` words from an address on, ending before the first that is missing; an address past the top wraps (rule R20). -/
def State.fetchWords (s : State) : Nat → CodeAddr → List Word16
  | 0, _ => []
  | n + 1, a =>
    match s.fetchWord a with
    | none => []
    | some w => w :: s.fetchWords n (a + 2)

/-! ## The instruction step up to execution -/

/-- What a step comes to: it is over, or an instruction runs in a state. -/
inductive Issue
  | done (r : Result)
  | run (i : Instr) (s : State)

/-- Steps 1 to 5 of rule R28 for the running task, up to the execution of the instruction: the fetch address is checked
first (R251), then the modes (R252) and the banks (U20); the skip bits shift; a skipped instruction passes by with its
extension words and loses the cascade; another is decoded from its words. -/
def issueRunning (s : State) : Issue :=
  if s.pc.getLsbD 0 then .done (raise (.misalignedFetch s.pc))
  else if s.stack.p || s.stack.b then .done (refuse .modeUnmodelled)
  else if !s.banksExist then .done (raise .bankOutOfRange)
  else
    match s.fetchWord s.pcAddr with
    | none => .done (raise (.unwrittenRead (.code s.pcAddr)))
    | some w =>
      if s.skip0 then .done (.next (s.shiftSkip.retire (lengthOf w)))
      else
        match decode (s.fetchWords 3 s.pcAddr) with
        | .error _ =>
          .done (raise (.unwrittenRead
            (.code (s.pcAddr + BitVec.ofNat 28 (2 * (s.fetchWords 3 s.pcAddr).length)))))
        | .ok (i, _) => .run i s.shiftSkip

/-- One step up to execution: the environment's moves, the choice of the task, its instruction; with no task ready
nothing happens (R248, R258). -/
def State.issue (s : State) : Issue :=
  match s.arrive.schedule with
  | none => .done (.next s.arrive)
  | some s' => issueRunning s'

/-! ## Placing an instruction -/

/-- Put words into the program text from an address on. -/
def State.placeWords (s : State) (a : CodeAddr) : List Word16 → State
  | [] => s
  | w :: ws => ({ s with imem := cellWrite s.imem a.toNat w } : State).placeWords (a + 2) ws

/-- A state in which the next step runs some task: `s` itself, or with no task ready `s` with task 15 ready and no
move of the environment before the step. -/
def State.withRunner (s : State) : State :=
  match s.arrive.schedule with
  | some _ => s
  | none => { s with env := [] }.setReady ⟨15, true⟩

/-- The task the next step runs. -/
def State.nextRunner (s : State) : TaskNo :=
  match s.arrive.schedule with
  | some s' => s'.cur
  | none => 15

/-- Make a task ready to fetch: an even PC, the modes off, and its next instruction not skipped. -/
def State.makeFetchable (s : State) (t : TaskNo) : State :=
  let r := s.tasks[t]
  let r' : TaskRegs :=
    ⟨r.pc &&& 0xFFFFFFFE, { r.status with skip := r.status.skip &&& 0x7F }, { r.stack with p := false, b := false }⟩
  { s with tasks := s.tasks.set t r' }

/-- The words of a table row placed where the next step fetches, in the program text of the task it will run. -/
def State.placeNext (s : State) (ws : List Word16) : State :=
  let s1 := s.withRunner
  let t := s1.nextRunner
  let s2 := s1.makeFetchable t
  s2.placeWords (s2.tasks[t].pc.extractLsb' 0 28) ws

end Sys2Proof.Machine
end

