-- ==== Sys2Proof/Machine/Step.lean ====
section
/-! DEFINITION. One step of the processor (10_state.md rule R28), and the placing of an instruction where the next
step fetches. -/

namespace Sys2Proof.Machine

/-- One step: it ends before execution, or the decoded instruction runs. -/
def step (s : State) : Host.Outcome State Fault Refusal :=
  match s.issue with
  | .done r => r
  | .run i s' => exec i s'

/-- `s` with an instruction stored where the next step fetches, so that this step runs it (log entry 6). -/
def State.withFetchWord (s : State) (nbits w : Nat) : State := s.placeNext (tableWords nbits w)

end Sys2Proof.Machine
end

