-- ==== Sys2Proof/Safety.lean ====
section
/-! DEFINITION. The invariant of the machine's state, what counts as a safe run, and what the scheduler's fairness is said
of. -/

namespace Sys2Proof.Machine

/-- Every listed register memory word is below 16384 (rule R13). -/
def regMemInRange (m : List (Nat × Word)) : Bool := m.all (fun e => decide (e.1 < 16384))

/-- Every listed data address is a 64 bit address (rule R41). -/
def memInRange (m : List Host.Cell) : Bool := m.all (fun e => decide (e.1 < 2 ^ 64))

/-- Every listed word of program text is at an even 28 bit address (rule R40). -/
def textInRange (m : List (Nat × Word16)) : Bool := m.all (fun e => decide (e.1 < 2 ^ 28) && decide (e.1 % 2 = 0))

/-- The invariant: the three memories are in canonical form and inside their address spaces. -/
def State.Inv (s : State) : Prop :=
  Memory.wf s.mem = true ∧ regMemWf s.regMem = true ∧ textWf s.imem = true ∧
    memInRange s.mem = true ∧ regMemInRange s.regMem = true ∧ textInRange s.imem = true

/-- The step from `s` is no fault. A refusal is no fault: it gives the step no meaning (rule R241). -/
def State.stepsSafely (s : State) : Prop := ∀ f, step s ≠ .fault f

/-- `n` steps from `s` meet no fault and no refusal: "the faulted state is never a final state of a run" (rule R240), and
a refusal "marks the whole run as refused" (rule R241). -/
def State.runsSafely (s : State) : Nat → Prop
  | 0 => True
  | n + 1 => ∃ t, step s = .next t ∧ t.runsSafely n

/-- The next step gives the processor to a software task, if one is ready: no cascade is pending and, after the
environment's moves, no hardware task is ready (rules R247 to R249). -/
def State.picksSoftware (s : State) : Prop :=
  s.cascValid = false ∧ ∀ k : TaskNo, 8 ≤ k.val → s.arrive.tasks[k].stack.r = false

/-- A task is ready after the environment's moves before the next step, and none of them makes it unready: "a task that
stays ready" (rule R248). -/
def State.staysReady (s : State) (k : TaskNo) : Prop :=
  s.arrive.tasks[k].stack.r = true ∧ ∀ m ∈ s.env.headD [], m.task = k → m.ready = true

end Sys2Proof.Machine
end

