-- ==== Sys2Proof/Certificates/Slice0/Obligations.lean ====
section
/-! DEFINITION. The statements for the provers, and the vocabulary they are written in. The results, flags, addresses and
values are written here in the spec's arithmetic on numbers and bits, not by the model's own functions for them; the model
is read through `readReg` (a visible register of the running task), `readPhys` (a word of register memory), `readByte` (a
byte of data memory), `pc`, `status` and `stack` (of the running task) and `tasks`. -/

namespace Sys2Proof.Claims

open Sys2Proof.Machine

/-! ## Values -/

/-- The value of an immediate (rule R76): 4 and 16 bit ones zero-extended; of a 32 bit one the low half is the first
extension word with IMM32_ORDER = low_first and the second with high_first. -/
def immediate (order : Imm32Order) : Imm → Word
  | .short v => BitVec.ofNat 32 v.toNat
  | .word e => BitVec.ofNat 32 e.toNat
  | .long e1 e2 =>
    match order with
    | .lowFirst => BitVec.ofNat 32 (e2.toNat * 65536 + e1.toNat)
    | .highFirst => BitVec.ofNat 32 (e1.toNat * 65536 + e2.toNat)

/-- The length in bytes of an instruction with an immediate (rule R77). -/
def immBytes : Imm → Nat
  | .short _ => 2
  | .word _ => 4
  | .long _ _ => 6

/-- The dest operand: the cascaded value, which is the register memory word of R15, when a cascade comes in, else the
register (rules R27, R132). -/
def destValue (s : State) (d : Reg) : Word := if s.cascValid then s.readPhys (s.phys 15) else s.readReg d

/-- A carry as a number. -/
def asNat (b : Bool) : Nat := if b then 1 else 0

/-- The PC after an instruction of `len` bytes: `pc[27:0]` has grown modulo 2^28, `pc[31:28]` is as before (rules R18,
R19). -/
def Advanced (s t : State) (len : Nat) : Prop :=
  t.pc.toNat % 2 ^ 28 = (s.pc.toNat + len) % 2 ^ 28 ∧ t.pc.toNat / 2 ^ 28 = s.pc.toNat / 2 ^ 28

/-- The top two bits of a value are 01 or 10: an object address (rule R42). -/
def ObjectAddress (v : Word) : Prop := v.toNat / 2 ^ 30 = 1 ∨ v.toNat / 2 ^ 30 = 2

/-! ## Frames -/

/-- What no instruction changes: the parameters, the running task, the software tasks' turns, the environment's moves, the
program text, and the PC, STATUS and STACK of every other task. -/
structure Apart (s t : State) : Prop where
  cfg : t.cfg = s.cfg
  cur : t.cur = s.cur
  turns : t.turns = s.turns
  env : t.env = s.env
  imem : t.imem = s.imem
  others : ∀ k : TaskNo, k ≠ s.cur → t.tasks[k] = s.tasks[k]

/-- Every visible register but `n` is unchanged, and every word of register memory but the one `n` maps to; that word
holds `v`; register 15 is never read back (rules R11, R12, R14). -/
structure WritesReg (s : State) (n : Reg) (v : Word) (t : State) : Prop where
  result : n ≠ 15 → t.readReg n = v
  word : t.readPhys (s.phys n) = v
  otherRegs : ∀ m, m ≠ n → t.readReg m = s.readReg m
  zero : t.readReg 15 = 0
  otherWords : ∀ w, w ≠ s.phys n → t.readPhys w = s.readPhys w

/-- No register is written. -/
structure KeepsRegs (s t : State) : Prop where
  regs : ∀ m, t.readReg m = s.readReg m
  words : ∀ w, t.readPhys w = s.readPhys w

/-- No byte of data memory changes. -/
def KeepsMem (s t : State) : Prop := ∀ a, t.readByte a = s.readByte a

/-- Everything a MATH, SHIFT or LOGIC instruction leaves: the result in dest, or with K = 1 in the latch and in no visible
register; the four flags and no other bit of STATUS; STACK, memory and all else as before. -/
structure AluLeaves (s : State) (k : Bool) (d : Reg) (len drawn : Nat) (r : Word) (c v : Bool) (t : State) : Prop where
  apart : Apart s t
  plain : k = false → WritesReg s d r t
  cascade : k = true → WritesReg s 15 r t
  latch : t.cascValid = k
  status : t.status = { s.status with n := decide (2 ^ 31 ≤ r.toNat), z := decide (r.toNat = 0), c := c, v := v }
  stack : t.stack = s.stack
  pc : Advanced s t len
  mem : KeepsMem s t
  draws : t.draws = s.draws + drawn

/-! ## The four forms of a MATH, SHIFT or LOGIC instruction -/

/-- The encoding: the first byte `p` for the plain form, plus 0x08 for K = 1, plus 0x10 for `#` = 1; then dest, then the
source register or the immediate's field (rules R73, R76). -/
def FormsDecode (p : BitVec 8) (plain : Reg → Reg → Instr) (imm : Reg → Imm → Instr) (casc : Reg → Reg → Instr)
    (cascImm : Reg → Imm → Instr) : Prop :=
  ∀ (d r : Reg) (rest : List Word16),
    decode ((p ++ d ++ r) :: rest) = .ok (plain d r, rest) ∧
    decode (((p + 0x08) ++ d ++ r) :: rest) = .ok (casc d r, rest) ∧
    (r.toNat ≤ 13 →
      decode (((p + 0x10) ++ d ++ r) :: rest) = .ok (imm d (.short r), rest) ∧
      decode (((p + 0x18) ++ d ++ r) :: rest) = .ok (cascImm d (.short r), rest)) ∧
    (∀ e, decode (((p + 0x10) ++ d ++ 14#4) :: e :: rest) = .ok (imm d (.word e), rest) ∧
      decode (((p + 0x18) ++ d ++ 14#4) :: e :: rest) = .ok (cascImm d (.word e), rest)) ∧
    ∀ e1 e2, decode (((p + 0x10) ++ d ++ 15#4) :: e1 :: e2 :: rest) = .ok (imm d (.long e1 e2), rest) ∧
      decode (((p + 0x18) ++ d ++ 15#4) :: e1 :: e2 :: rest) = .ok (cascImm d (.long e1 e2), rest)

/-- The four forms complete in every state (a cascade form where it does not follow a cascade, or the sequence is
allowed), with the result, C and V given as functions of STATUS.C, the dest operand and the source operand. -/
def FormsRun (plain : Reg → Reg → Instr) (imm : Reg → Imm → Instr) (casc : Reg → Reg → Instr)
    (cascImm : Reg → Imm → Instr) (drawn : Nat) (result : Bool → Word → Word → Word)
    (cv : State → Word → Word → Bool × Bool) : Prop :=
  ∀ (s : State) (d : Reg),
    (∀ r, ∃ t, exec (plain d r) s = .next t ∧
      AluLeaves s false d 2 drawn (result s.status.c (destValue s d) (s.readReg r))
        (cv s (destValue s d) (s.readReg r)).1 (cv s (destValue s d) (s.readReg r)).2 t) ∧
    (∀ m, ∃ t, exec (imm d m) s = .next t ∧
      AluLeaves s false d (immBytes m) drawn (result s.status.c (destValue s d) (immediate s.cfg.imm32Order m))
        (cv s (destValue s d) (immediate s.cfg.imm32Order m)).1
        (cv s (destValue s d) (immediate s.cfg.imm32Order m)).2 t) ∧
    (s.cascValid = false ∨ s.cfg.cascadeChain = .allow →
      (∀ r, ∃ t, exec (casc d r) s = .next t ∧
        AluLeaves s true d 2 drawn (result s.status.c (destValue s d) (s.readReg r))
          (cv s (destValue s d) (s.readReg r)).1 (cv s (destValue s d) (s.readReg r)).2 t) ∧
      ∀ m, ∃ t, exec (cascImm d m) s = .next t ∧
        AluLeaves s true d (immBytes m) drawn (result s.status.c (destValue s d) (immediate s.cfg.imm32Order m))
          (cv s (destValue s d) (immediate s.cfg.imm32Order m)).1
          (cv s (destValue s d) (immediate s.cfg.imm32Order m)).2 t)

/-- C and V of a SHIFT or LOGIC instruction: the draw `FlagsCV` (rules R159, R179). -/
def drawn (op : FlagOp) (result : Word → Word → Word) (s : State) (dv sv : Word) : Bool × Bool :=
  Config.flagsCV s.draws op dv sv (result dv sv)

/-- A first word of the MATH, SHIFT or LOGIC groups: `w[15:13]` is 001, 010 or 011 (rule R73). -/
def FormatA (i : Instr) : Prop :=
  ∃ w rest, encode i = w :: rest ∧ (w.toNat / 2 ^ 13 = 1 ∨ w.toNat / 2 ^ 13 = 2 ∨ w.toNat / 2 ^ 13 = 3)

/-- A cascade instruction: format A with K = `w[11]` = 1 (rule R131). -/
def IsCascade (i : Instr) : Prop :=
  ∃ w rest, encode i = w :: rest ∧ (w.toNat / 2 ^ 13 = 1 ∨ w.toNat / 2 ^ 13 = 2 ∨ w.toNat / 2 ^ 13 = 3) ∧
    w.getLsbD 11 = true

/-- Format M (rule R74): the group with `#` = 0, then base, reg and the offset register; with `#` = 1 the group one
higher, the offset an immediate. -/
def FormatMDecodes (g : BitVec 4) (reg : Reg → Reg → Reg → Instr) (imm : Reg → Reg → Imm → Instr) : Prop :=
  ∀ (b r o : Reg) (rest : List Word16),
    decode ((g ++ b ++ r ++ o) :: rest) = .ok (reg b r o, rest) ∧
    (o.toNat ≤ 13 → decode (((g + 1) ++ b ++ r ++ o) :: rest) = .ok (imm b r (.short o), rest)) ∧
    (∀ e, decode (((g + 1) ++ b ++ r ++ 14#4) :: e :: rest) = .ok (imm b r (.word e), rest)) ∧
    ∀ e1 e2, decode (((g + 1) ++ b ++ r ++ 15#4) :: e1 :: e2 :: rest) = .ok (imm b r (.long e1 e2), rest)

/-- Group 9 (rule R80): base, dest, and the opcode of a short extended instruction. -/
def ExtendedDecodes (code : BitVec 4) (ext : Reg → Reg → Instr) : Prop :=
  ∀ (b d : Reg) (rest : List Word16), decode ((0x9#4 ++ b ++ d ++ code) :: rest) = .ok (ext b d, rest)

/-! ## Conditions -/

/-- The field `w[11:8]` of a condition: the test in its upper three bits, the polarity in its lowest (rule R100). -/
def condBits (c : Cond) : BitVec 4 :=
  BitVec.ofNat 4 ((match c.test with
    | .zero => 0
    | .carry => 2
    | .negative => 4
    | .overflow => 6
    | .less => 8
    | .lessOrEqual => 10
    | .lowerOrSame => 12
    | .always => 14) + asNat c.polarity)

/-- The sixteen conditions by name, on the flags (rules R100, R108). -/
def Condition (c : Cond) (st : Status) : Prop :=
  match c.test, c.polarity with
  | .zero, false => st.z = false
  | .zero, true => st.z = true
  | .carry, false => st.c = false
  | .carry, true => st.c = true
  | .negative, false => st.n = false
  | .negative, true => st.n = true
  | .overflow, false => st.v = false
  | .overflow, true => st.v = true
  | .less, false => st.n = st.v
  | .less, true => st.n ≠ st.v
  | .lessOrEqual, false => st.z = false ∧ st.n = st.v
  | .lessOrEqual, true => st.z = true ∨ st.n ≠ st.v
  | .lowerOrSame, false => st.z = false ∧ st.c = true
  | .lowerOrSame, true => st.z = true ∨ st.c = false
  | .always, false => False
  | .always, true => True

/-! ## Memory instructions -/

/-- The address a memory instruction forms from its base value and offset value (rules R43, R44, R190): the offset part
is the sum modulo 2^32 in the task's byte vector, or the offset alone in the object the base names. By default the byte
vector of task t is `0b10 ‖ t ‖ 0^15`. -/
def Address (s : State) (bv ov : Word) (a : DataAddr) : Prop :=
  (ObjectAddress bv → a.obj = bv ∧ a.off = ov) ∧
  (¬ ObjectAddress bv →
    (s.cfg.taskVector = .specDefault → a.obj.toNat = 2 ^ 31 + s.stack.task.toNat * 2 ^ 15) ∧
    (s.cfg.taskVector = .supplied → a.obj = Config.taskVectorOther s.stack.task) ∧
    a.off.toNat = (bv.toNat + ov.toNat) % 2 ^ 32)

/-- `own`: a first-kind base always is the current task's; an object reference is when `TaskOfRef` gives STACK.Task: by
default the field t of form 10, and of form 01 `t[7] ‖ 0^7 ‖ t[6:0]` (rule R52). -/
def Own (s : State) (bv : Word) : Prop :=
  ObjectAddress bv →
    (s.cfg.taskOfRef = .specDefault →
      s.stack.task.toNat =
        if bv.toNat / 2 ^ 31 = 1 then bv.toNat / 2 ^ 15 % 2 ^ 15
        else bv.toNat / 2 ^ 29 % 2 * 2 ^ 14 + bv.toNat / 2 ^ 22 % 2 ^ 7) ∧
    (s.cfg.taskOfRef = .supplied → Config.taskOfRefOther bv = s.stack.task)

/-- The byte at an offset exists in the launch's `Valid` (rule R41). -/
def ByteIsThere (s : State) (obj : Word) (off : Nat) : Prop :=
  match s.cfg.valid with
  | .everywhere => True
  | .only rs => ∃ r ∈ rs, r.obj = obj ∧ r.lo ≤ off ∧ off < r.lo + r.size

/-- The `n` bytes from an offset exist. -/
def AllExist (s : State) (obj : Word) (off n : Nat) : Prop := ∀ i, i < n → ByteIsThere s obj (off + i)

/-- The memory key of the byte at an offset of an object: the 64 bit address (rule R41). -/
def byteKey (obj : Word) (off : Nat) : Nat := obj.toNat * 2 ^ 32 + off

/-- The number whose bytes, lowest address first, are `b0 b1 b2 b3` (rule R47). -/
def wordNat (o : ByteOrder) (b0 b1 b2 b3 : Byte) : Nat :=
  match o with
  | .little => b0.toNat + b1.toNat * 2 ^ 8 + b2.toNat * 2 ^ 16 + b3.toNat * 2 ^ 24
  | .big => b3.toNat + b2.toNat * 2 ^ 8 + b1.toNat * 2 ^ 16 + b0.toNat * 2 ^ 24

/-- What a LD, ST or STB leaves apart from its register or bytes. -/
structure MemLeaves (s : State) (len : Nat) (t : State) : Prop where
  apart : Apart s t
  status : t.status = s.status
  stack : t.stack = s.stack
  pc : Advanced s t len
  latch : t.cascValid = false
  draws : t.draws = s.draws

/-- A LD with the given base value, offset value and length completes: it may load, its word exists and is written; the
register gets the word shifted right by 8k, `LdFill` by default zeros (rules R48, R52, R191). The value with another
LdFill, or with BYTE_ORDER big and k > 0, is left to the frame. -/
def LoadRuns (i : Instr) (s : State) (r : Reg) (bv ov : Word) (len : Nat) : Prop :=
  ∀ (a : DataAddr) (b0 b1 b2 b3 : Byte),
    Address s bv ov a → (Own s bv ∨ bv.getLsbD 29 = true) →
    AllExist s a.obj (a.off.toNat / 4 * 4) 4 →
    s.readByte (byteKey a.obj (a.off.toNat / 4 * 4)) = some b0 →
    s.readByte (byteKey a.obj (a.off.toNat / 4 * 4 + 1)) = some b1 →
    s.readByte (byteKey a.obj (a.off.toNat / 4 * 4 + 2)) = some b2 →
    s.readByte (byteKey a.obj (a.off.toNat / 4 * 4 + 3)) = some b3 →
    ∃ t v, exec i s = .next t ∧ MemLeaves s len t ∧ WritesReg s r v t ∧ KeepsMem s t ∧
      (a.off.toNat % 4 = 0 → v.toNat = wordNat s.cfg.byteOrder b0 b1 b2 b3) ∧
      (s.cfg.byteOrder = .little →
        v.toNat % 2 ^ (32 - 8 * (a.off.toNat % 4)) =
          wordNat .little b0 b1 b2 b3 / 2 ^ (8 * (a.off.toNat % 4)) ∧
        (s.cfg.ldFill = .specDefault →
          v.toNat = wordNat .little b0 b1 b2 b3 / 2 ^ (8 * (a.off.toNat % 4))))

/-- A ST with the given base value, offset value and length completes: the object is the current task's, the address is
aligned and exists; exactly its four bytes become the register's bytes (rules R47, R49, R52, R192). -/
def StoreRuns (i : Instr) (s : State) (r : Reg) (bv ov : Word) (len : Nat) : Prop :=
  ∀ a : DataAddr, Address s bv ov a → Own s bv → a.off.toNat % 4 = 0 → AllExist s a.obj a.off.toNat 4 →
    ∃ t b0 b1 b2 b3, exec i s = .next t ∧ MemLeaves s len t ∧ KeepsRegs s t ∧
      t.readByte (byteKey a.obj a.off.toNat) = some b0 ∧
      t.readByte (byteKey a.obj (a.off.toNat + 1)) = some b1 ∧
      t.readByte (byteKey a.obj (a.off.toNat + 2)) = some b2 ∧
      t.readByte (byteKey a.obj (a.off.toNat + 3)) = some b3 ∧
      wordNat s.cfg.byteOrder b0 b1 b2 b3 = (s.readReg r).toNat ∧
      ∀ j, (j < byteKey a.obj a.off.toNat ∨ byteKey a.obj a.off.toNat + 4 ≤ j) → t.readByte j = s.readByte j

/-- A STB completes: exactly the byte at the address becomes the low byte of the register (rules R50, R193). -/
def StoreByteRuns (i : Instr) (s : State) (r : Reg) (bv ov : Word) (len : Nat) : Prop :=
  ∀ a : DataAddr, Address s bv ov a → Own s bv → AllExist s a.obj a.off.toNat 1 →
    ∃ t, exec i s = .next t ∧ MemLeaves s len t ∧ KeepsRegs s t ∧
      t.readByte (byteKey a.obj a.off.toNat) = some (BitVec.ofNat 8 (s.readReg r).toNat) ∧
      ∀ j, j ≠ byteKey a.obj a.off.toNat → t.readByte j = s.readByte j

/-- The aligned address of the word that contains an address. -/
def wordAddr (a : DataAddr) : DataAddr := ⟨a.obj, BitVec.ofNat 32 (a.off.toNat / 4 * 4)⟩

/-- Where a LD stops, in the order of rule R194. -/
def LoadStops (i : Instr) (s : State) (bv ov : Word) : Prop :=
  ∀ a : DataAddr, Address s bv ov a →
    (¬ Own s bv → bv.getLsbD 29 = false → exec i s = .fault (.accessErrorLoad a)) ∧
    ((Own s bv ∨ bv.getLsbD 29 = true) →
      (¬ AllExist s a.obj (a.off.toNat / 4 * 4) 4 → exec i s = .fault (.invalidAddress (wordAddr a) 4)) ∧
      (AllExist s a.obj (a.off.toNat / 4 * 4) 4 →
        (∃ j, j < 4 ∧ s.readByte (byteKey a.obj (a.off.toNat / 4 * 4 + j)) = none) →
          exec i s = .fault (.unwrittenRead (.data (wordAddr a)))))

/-- Where a ST stops, in the order of rule R194. -/
def StoreStops (i : Instr) (s : State) (bv ov : Word) : Prop :=
  ∀ a : DataAddr, Address s bv ov a →
    (¬ Own s bv → exec i s = .fault (.accessErrorStore a)) ∧
    (Own s bv →
      (a.off.toNat % 4 ≠ 0 → exec i s = .fault (.misalignedStore a)) ∧
      (a.off.toNat % 4 = 0 → ¬ AllExist s a.obj a.off.toNat 4 → exec i s = .fault (.invalidAddress a 4)))

/-- A LD in the state `t` that a ST of register `r` in `s` left: it completes, the value stored goes to `d`, and no other
register and no byte changes. -/
def LoadsBack (i : Instr) (s t : State) (r d : Reg) : Prop :=
  ∃ u, exec i t = .next u ∧ (d ≠ 15 → u.readReg d = s.readReg r) ∧ (∀ n, n ≠ d → u.readReg n = s.readReg n) ∧
    ∀ j, u.readByte j = t.readByte j

/-- Where a STB stops, in the order of rule R194. -/
def StoreByteStops (i : Instr) (s : State) (bv ov : Word) : Prop :=
  ∀ a : DataAddr, Address s bv ov a →
    (¬ Own s bv → exec i s = .fault (.accessErrorStore a)) ∧
    (Own s bv → ¬ AllExist s a.obj a.off.toNat 1 → exec i s = .fault (.invalidAddress a 1))

/-! ## Jumps, coprocessor calls, STK -/

/-- A JUMPL that is no SEND: all 32 bits of base + offset to PC, the link to savePC (the PC register itself with
PC_VISIBLE = current, the address after the instruction with next), the skip bits 0, all else as before. -/
def JumpRuns (i : Instr) (s : State) (l : Reg) (bv ov : Word) (len : Nat) : Prop :=
  ¬ ObjectAddress bv → ¬ ObjectAddress ov →
    ∃ t link, exec i s = .next t ∧ Apart s t ∧ WritesReg s l link t ∧ KeepsMem s t ∧
      (s.cfg.pcVisible = .current → link = s.pc) ∧
      (s.cfg.pcVisible = .next →
        link.toNat % 2 ^ 28 = (s.pc.toNat + len) % 2 ^ 28 ∧ link.toNat / 2 ^ 28 = s.pc.toNat / 2 ^ 28) ∧
      t.pc.toNat = (bv.toNat + ov.toNat) % 2 ^ 32 ∧
      t.status = { s.status with skip := 0 } ∧ t.stack = s.stack ∧ t.cascValid = false ∧ t.draws = s.draws

/-- A coprocessor call: the result of the draw to dest, flags and skip bits as before. -/
def CoprocRuns (i : Instr) (s : State) (code : CoprocCode) (b d : Reg) (len : Nat) : Prop :=
  ∃ t, exec i s = .next t ∧ Apart s t ∧
    WritesReg s d (Config.coprocResult s.draws code (s.readReg b) (s.readReg d)) t ∧ KeepsMem s t ∧
    t.status = s.status ∧ t.stack = s.stack ∧ Advanced s t len ∧ t.cascValid = false ∧ t.draws = s.draws + 1

/-- The new SP of a STK, in words modulo 2^14 (rule R223). -/
def slidSp (s : State) (src d : Reg) : Nat := (s.stack.sp.toNat + 2 ^ 14 + src.toNat - d.toNat) % 2 ^ 14

/-- What a STK leaves apart from SP and the banks: no content moves. -/
structure StkLeaves (s : State) (src d : Reg) (t : State) : Prop where
  apart : Apart s t
  words : ∀ w, t.readPhys w = s.readPhys w
  mem : KeepsMem s t
  sp : t.stack.sp.toNat = slidSp s src d
  stack : t.stack = { s.stack with sp := t.stack.sp }
  pc : Advanced s t 2
  latch : t.cascValid = false

/-- The names slide: the register named `n` afterwards is the one that stood `source - dest` further on before. -/
def Renames (s : State) (src d : Reg) (t : State) : Prop :=
  ∀ n m : Reg, (n.toNat : Int) + src.toNat - d.toNat = m.toNat → t.phys n = s.phys m

/-! ## The step -/

/-- The state a step runs its task in: after the environment's moves, with the running task chosen. -/
def Runs (s u : State) : Prop := s.arrive.schedule = some u

/-- The running task can fetch: an even PC, both modes off, both banks in register memory. -/
def CanFetch (u : State) : Prop :=
  u.pc.toNat % 2 = 0 ∧ u.stack.p = false ∧ u.stack.b = false ∧
    u.status.bankA.toNat < u.cfg.regBlocks.val ∧ u.status.bankB.toNat < u.cfg.regBlocks.val

/-- The word of program text at a byte address, taken modulo 2^28 (rules R20, R40). -/
def textWord (u : State) (a : Nat) : Option Word16 := cellRead u.imem (a % 2 ^ 28)

/-- The state with the skip bits shifted: skip1 becomes skip0 and 0 enters skip7 (rule R22); nothing else differs. -/
def Shifted (u v : State) : Prop :=
  v = { u with tasks := u.tasks.set u.cur { u.regs with status := { u.status with skip := v.status.skip } } } ∧
    v.status.skip.toNat = u.status.skip.toNat * 2 % 256

end Sys2Proof.Claims

open Sys2Proof Sys2Proof.Machine Sys2Proof.Claims

/-- MOV, MOV#, KMOV, KMOV# (R123, R131): encoding, result, the four flags, frame, completion. Choices of the spec and the model: immediates are zero-extended (D9, log entry 25), a K form after a K form where the launch allows it (log entry 7), the incoming cascade in place of dest (D14, log entry 28). -/
def Obligations.MovTakesTheSource : Prop :=
  FormsDecode 0x20 .mov .movI .kmov .kmovI ∧
  FormsRun .mov .movI .kmov .kmovI 0
    (fun _ _ sv => sv)
    (fun _ _ _ => (false, false))

/-- INC, INC#, KINC, KINC# (R124, R131): encoding, result, the four flags, frame, completion. Choices of the spec and the model: immediates are zero-extended (D9, log entry 25), a K form after a K form where the launch allows it (log entry 7), the incoming cascade in place of dest (D14, log entry 28). -/
def Obligations.IncAddsOneToTheSource : Prop :=
  FormsDecode 0x21 .inc .incI .kinc .kincI ∧
  FormsRun .inc .incI .kinc .kincI 0
    (fun _ _ sv => BitVec.ofNat 32 (sv.toNat + 1))
    (fun _ _ sv => (decide (sv.toNat = 0xFFFFFFFF), decide (sv.toNat = 0x7FFFFFFF)))

/-- NOT, NOT#, KNOT, KNOT# (R125, R131): encoding, result, the four flags, frame, completion. Choices of the spec and the model: immediates are zero-extended (D9, log entry 25), a K form after a K form where the launch allows it (log entry 7), the incoming cascade in place of dest (D14, log entry 28). -/
def Obligations.NotInvertsTheSource : Prop :=
  FormsDecode 0x22 .not .notI .knot .knotI ∧
  FormsRun .not .notI .knot .knotI 0
    (fun _ _ sv => BitVec.ofNat 32 (2 ^ 32 - 1 - sv.toNat))
    (fun _ _ _ => (false, false))

/-- NEG, NEG#, KNEG, KNEG# (R126, R131): encoding, result, the four flags, frame, completion. Choices of the spec and the model: immediates are zero-extended (D9, log entry 25), a K form after a K form where the launch allows it (log entry 7), the incoming cascade in place of dest (D14, log entry 28). -/
def Obligations.NegNegatesTheSource : Prop :=
  FormsDecode 0x23 .neg .negI .kneg .knegI ∧
  FormsRun .neg .negI .kneg .knegI 0
    (fun _ _ sv => BitVec.ofNat 32 (2 ^ 32 - sv.toNat))
    (fun _ _ sv => (decide (sv.toNat = 0), decide (sv.toNat = 0x80000000)))

/-- ADD, ADD#, KADD, KADD# (R127, R131): encoding, result, the four flags, frame, completion. Choices of the spec and the model: immediates are zero-extended (D9, log entry 25), a K form after a K form where the launch allows it (log entry 7), the incoming cascade in place of dest (D14, log entry 28), the formula of V (R122, log entry 27). -/
def Obligations.AddAddsDestAndSource : Prop :=
  FormsDecode 0x24 .add .addI .kadd .kaddI ∧
  FormsRun .add .addI .kadd .kaddI 0
    (fun _ dv sv => BitVec.ofNat 32 (dv.toNat + sv.toNat))
    (fun _ dv sv =>
      (decide (2 ^ 32 ≤ dv.toNat + sv.toNat),
        decide (dv.toInt + sv.toInt < -2 ^ 31 ∨ 2 ^ 31 ≤ dv.toInt + sv.toInt)))

/-- ADC, ADC#, KADC, KADC# (R128, R131): encoding, result, the four flags, frame, completion. Choices of the spec and the model: immediates are zero-extended (D9, log entry 25), a K form after a K form where the launch allows it (log entry 7), the incoming cascade in place of dest (D14, log entry 28), the formula of V (R122, log entry 27). -/
def Obligations.AdcAddsTheCarryToo : Prop :=
  FormsDecode 0x25 .adc .adcI .kadc .kadcI ∧
  FormsRun .adc .adcI .kadc .kadcI 0
    (fun c dv sv => BitVec.ofNat 32 (dv.toNat + sv.toNat + asNat c))
    (fun s dv sv =>
      (decide (2 ^ 32 ≤ dv.toNat + sv.toNat + asNat s.status.c),
        decide (dv.toInt + sv.toInt + asNat s.status.c < -2 ^ 31 ∨ 2 ^ 31 ≤ dv.toInt + sv.toInt + asNat s.status.c)))

/-- SBB, SBB#, KSBB, KSBB# (R129, R131): encoding, result, the four flags, frame, completion. Choices of the spec and the model: immediates are zero-extended (D9, log entry 25), a K form after a K form where the launch allows it (log entry 7), the incoming cascade in place of dest (D14, log entry 28), the formula of V (R122, log entry 27). -/
def Obligations.SbbSubtractsWithBorrow : Prop :=
  FormsDecode 0x26 .sbb .sbbI .ksbb .ksbbI ∧
  FormsRun .sbb .sbbI .ksbb .ksbbI 0
    (fun c dv sv => BitVec.ofNat 32 (dv.toNat + (2 ^ 32 - 1 - sv.toNat) + asNat c))
    (fun s dv sv =>
      (decide (sv.toNat + (1 - asNat s.status.c) ≤ dv.toNat),
        decide (dv.toInt - sv.toInt - (1 - (asNat s.status.c : Int)) < -2 ^ 31 ∨
          2 ^ 31 ≤ dv.toInt - sv.toInt - (1 - (asNat s.status.c : Int)))))

/-- SUB, SUB#, KSUB, KSUB# (R130, R131): encoding, result, the four flags, frame, completion. Choices of the spec and the model: immediates are zero-extended (D9, log entry 25), a K form after a K form where the launch allows it (log entry 7), the incoming cascade in place of dest (D14, log entry 28), the formula of V (R122, log entry 27). -/
def Obligations.SubSubtractsTheSource : Prop :=
  FormsDecode 0x27 .sub .subI .ksub .ksubI ∧
  FormsRun .sub .subI .ksub .ksubI 0
    (fun _ dv sv => BitVec.ofNat 32 (dv.toNat + 2 ^ 32 - sv.toNat))
    (fun _ dv sv =>
      (decide (sv.toNat ≤ dv.toNat),
        decide (dv.toInt - sv.toInt < -2 ^ 31 ∨ 2 ^ 31 ≤ dv.toInt - sv.toInt)))

/-- The result of SHR (R151). -/
def Sys2Proof.Claims.shrValue (dv sv : Word) : Word :=
  if sv.toNat < 32 then BitVec.ofNat 32 (dv.toNat / 2 ^ sv.toNat) else Config.shiftBig .shr dv sv

/-- SHR, SHR#, KSHR, KSHR# (R151, R159): encoding, result, flags, frame, completion. That N and Z are written and C and V a draw is the spec's decision D12 (log entry 27), amounts of 32 or more D16 (log entry 29). Further choices: immediates are zero-extended (D9, log entry 25), a K form after a K form where the launch allows it (log entry 7), the incoming cascade in place of dest (D14, log entry 28). -/
def Obligations.ShrShiftsRight : Prop :=
  FormsDecode 0x40 .shr .shrI .kshr .kshrI ∧
  FormsRun .shr .shrI .kshr .kshrI 1 (fun _ => shrValue) (drawn (.shift .shr) shrValue)

/-- The result of SHL (R152). -/
def Sys2Proof.Claims.shlValue (dv sv : Word) : Word :=
  if sv.toNat < 32 then BitVec.ofNat 32 (dv.toNat * 2 ^ sv.toNat) else Config.shiftBig .shl dv sv

/-- SHL, SHL#, KSHL, KSHL# (R152, R159): encoding, result, flags, frame, completion. That N and Z are written and C and V a draw is the spec's decision D12 (log entry 27), amounts of 32 or more D16 (log entry 29). Further choices: immediates are zero-extended (D9, log entry 25), a K form after a K form where the launch allows it (log entry 7), the incoming cascade in place of dest (D14, log entry 28). -/
def Obligations.ShlShiftsLeft : Prop :=
  FormsDecode 0x41 .shl .shlI .kshl .kshlI ∧
  FormsRun .shl .shlI .kshl .kshlI 1 (fun _ => shlValue) (drawn (.shift .shl) shlValue)

/-- The result of ASR (R153). -/
def Sys2Proof.Claims.asrValue (dv sv : Word) : Word :=
  if sv.toNat < 32 then BitVec.ofInt 32 (dv.toInt / 2 ^ sv.toNat) else Config.shiftBig .asr dv sv

/-- ASR, ASR#, KASR, KASR# (R153, R159): encoding, result, flags, frame, completion. That N and Z are written and C and V a draw is the spec's decision D12 (log entry 27), amounts of 32 or more D16 (log entry 29). Further choices: immediates are zero-extended (D9, log entry 25), a K form after a K form where the launch allows it (log entry 7), the incoming cascade in place of dest (D14, log entry 28). -/
def Obligations.AsrShiftsRightSigned : Prop :=
  FormsDecode 0x42 .asr .asrI .kasr .kasrI ∧
  FormsRun .asr .asrI .kasr .kasrI 1 (fun _ => asrValue) (drawn (.shift .asr) asrValue)

/-- The result of ROT (R154). -/
def Sys2Proof.Claims.rotValue (dv sv : Word) : Word :=
  if sv.toNat < 32 then BitVec.ofNat 32 (dv.toNat * 2 ^ sv.toNat % 2 ^ 32 + dv.toNat / 2 ^ (32 - sv.toNat))
    else Config.shiftBig .rot dv sv

/-- ROT, ROT#, KROT, KROT# (R154, R159): encoding, result, flags, frame, completion. That N and Z are written and C and V a draw is the spec's decision D12 (log entry 27), amounts of 32 or more D16 (log entry 29). Further choices: immediates are zero-extended (D9, log entry 25), a K form after a K form where the launch allows it (log entry 7), the incoming cascade in place of dest (D14, log entry 28). -/
def Obligations.RotRotatesLeft : Prop :=
  FormsDecode 0x43 .rot .rotI .krot .krotI ∧
  FormsRun .rot .rotI .krot .krotI 1 (fun _ => rotValue) (drawn (.shift .rot) rotValue)

/-- The result of DIV (R155). -/
def Sys2Proof.Claims.divValue (dv sv : Word) : Word :=
  if sv.toNat = 0 then Config.divCorner .div dv sv else BitVec.ofNat 32 (dv.toNat / sv.toNat)

/-- DIV, DIV#, KDIV, KDIV# (R155, R159): encoding, result, flags, frame, completion. That N and Z are written and C and V a draw is the spec's decision D12 (log entry 27), the quotient and its corner D18 (log entry 31). Further choices: immediates are zero-extended (D9, log entry 25), a K form after a K form where the launch allows it (log entry 7), the incoming cascade in place of dest (D14, log entry 28). -/
def Obligations.DivDividesUnsigned : Prop :=
  FormsDecode 0x44 .div .divI .kdiv .kdivI ∧
  FormsRun .div .divI .kdiv .kdivI 1 (fun _ => divValue) (drawn (.shift .div) divValue)

/-- The result of MUL (R156). -/
def Sys2Proof.Claims.mulValue (dv sv : Word) : Word :=
  BitVec.ofNat 32 (dv.toNat * sv.toNat)

/-- MUL, MUL#, KMUL, KMUL# (R156, R159): encoding, result, flags, frame, completion. That N and Z are written and C and V a draw is the spec's decision D12 (log entry 27), the low half D17 (log entry 30). Further choices: immediates are zero-extended (D9, log entry 25), a K form after a K form where the launch allows it (log entry 7), the incoming cascade in place of dest (D14, log entry 28). -/
def Obligations.MulKeepsTheLowHalf : Prop :=
  FormsDecode 0x45 .mul .mulI .kmul .kmulI ∧
  FormsRun .mul .mulI .kmul .kmulI 1 (fun _ => mulValue) (drawn (.shift .mul) mulValue)

/-- The result of DVS (R157). -/
def Sys2Proof.Claims.dvsValue (dv sv : Word) : Word :=
  if sv.toNat = 0 ∨ (dv.toNat = 0x80000000 ∧ sv.toNat = 0xFFFFFFFF) then Config.divCorner .dvs dv sv
    else dv.sdiv sv

/-- DVS, DVS#, KDVS, KDVS# (R157, R159): encoding, result, flags, frame, completion. That N and Z are written and C and V a draw is the spec's decision D12 (log entry 27), the rounding and the corners D18 (log entry 31). Further choices: immediates are zero-extended (D9, log entry 25), a K form after a K form where the launch allows it (log entry 7), the incoming cascade in place of dest (D14, log entry 28). -/
def Obligations.DvsDividesTowardZero : Prop :=
  FormsDecode 0x46 .dvs .dvsI .kdvs .kdvsI ∧
  FormsRun .dvs .dvsI .kdvs .kdvsI 1 (fun _ => dvsValue) (drawn (.shift .dvs) dvsValue)

/-- The result of MLS (R158). -/
def Sys2Proof.Claims.mlsValue (dv sv : Word) : Word :=
  BitVec.ofInt 32 (dv.toInt * sv.toInt)

/-- MLS, MLS#, KMLS, KMLS# (R158, R159): encoding, result, flags, frame, completion. That N and Z are written and C and V a draw is the spec's decision D12 (log entry 27), the low half D17 (log entry 30). Further choices: immediates are zero-extended (D9, log entry 25), a K form after a K form where the launch allows it (log entry 7), the incoming cascade in place of dest (D14, log entry 28). -/
def Obligations.MlsKeepsTheLowHalf : Prop :=
  FormsDecode 0x47 .mls .mlsI .kmls .kmlsI ∧
  FormsRun .mls .mlsI .kmls .kmlsI 1 (fun _ => mlsValue) (drawn (.shift .mls) mlsValue)

/-- The result of IOR (R171). -/
def Sys2Proof.Claims.iorValue (dv sv : Word) : Word := dv ||| sv

/-- IOR, IOR#, KIOR, KIOR# (R171, R179): encoding, result, flags, frame, completion. That N and Z are written and C and V a draw is the spec's decision D12 (log entry 27). Further choices: immediates are zero-extended (D9, log entry 25), a K form after a K form where the launch allows it (log entry 7), the incoming cascade in place of dest (D14, log entry 28). -/
def Obligations.IorIsInclusiveOr : Prop :=
  FormsDecode 0x60 .ior .iorI .kior .kiorI ∧
  FormsRun .ior .iorI .kior .kiorI 1 (fun _ => iorValue) (drawn (.logic .ior) iorValue)

/-- The result of XOR (R172). -/
def Sys2Proof.Claims.xorValue (dv sv : Word) : Word := dv ^^^ sv

/-- XOR, XOR#, KXOR, KXOR# (R172, R179): encoding, result, flags, frame, completion. That N and Z are written and C and V a draw is the spec's decision D12 (log entry 27). Further choices: immediates are zero-extended (D9, log entry 25), a K form after a K form where the launch allows it (log entry 7), the incoming cascade in place of dest (D14, log entry 28). -/
def Obligations.XorIsExclusiveOr : Prop :=
  FormsDecode 0x61 .xor .xorI .kxor .kxorI ∧
  FormsRun .xor .xorI .kxor .kxorI 1 (fun _ => xorValue) (drawn (.logic .xor) xorValue)

/-- The result of NOR (R173). -/
def Sys2Proof.Claims.norValue (dv sv : Word) : Word := ~~~(dv ||| sv)

/-- NOR, NOR#, KNOR, KNOR# (R173, R179): encoding, result, flags, frame, completion. That N and Z are written and C and V a draw is the spec's decision D12 (log entry 27). Further choices: immediates are zero-extended (D9, log entry 25), a K form after a K form where the launch allows it (log entry 7), the incoming cascade in place of dest (D14, log entry 28). -/
def Obligations.NorIsNotOr : Prop :=
  FormsDecode 0x62 .nor .norI .knor .knorI ∧
  FormsRun .nor .norI .knor .knorI 1 (fun _ => norValue) (drawn (.logic .nor) norValue)

/-- The result of EQV (R174). -/
def Sys2Proof.Claims.eqvValue (dv sv : Word) : Word := ~~~(dv ^^^ sv)

/-- EQV, EQV#, KEQV, KEQV# (R174, R179): encoding, result, flags, frame, completion. That N and Z are written and C and V a draw is the spec's decision D12 (log entry 27). Further choices: immediates are zero-extended (D9, log entry 25), a K form after a K form where the launch allows it (log entry 7), the incoming cascade in place of dest (D14, log entry 28). -/
def Obligations.EqvIsEquivalence : Prop :=
  FormsDecode 0x63 .eqv .eqvI .keqv .keqvI ∧
  FormsRun .eqv .eqvI .keqv .keqvI 1 (fun _ => eqvValue) (drawn (.logic .eqv) eqvValue)

/-- The result of AND (R175). -/
def Sys2Proof.Claims.andValue (dv sv : Word) : Word := dv &&& sv

/-- AND, AND#, KAND, KAND# (R175, R179): encoding, result, flags, frame, completion. That N and Z are written and C and V a draw is the spec's decision D12 (log entry 27). Further choices: immediates are zero-extended (D9, log entry 25), a K form after a K form where the launch allows it (log entry 7), the incoming cascade in place of dest (D14, log entry 28). -/
def Obligations.AndIsAnd : Prop :=
  FormsDecode 0x64 .and .andI .kand .kandI ∧
  FormsRun .and .andI .kand .kandI 1 (fun _ => andValue) (drawn (.logic .and) andValue)

/-- The result of ANI (R176). -/
def Sys2Proof.Claims.aniValue (dv sv : Word) : Word := ~~~dv &&& sv

/-- ANI, ANI#, KANI, KANI# (R176, R179): encoding, result, flags, frame, completion. That N and Z are written and C and V a draw is the spec's decision D12 (log entry 27). Further choices: immediates are zero-extended (D9, log entry 25), a K form after a K form where the launch allows it (log entry 7), the incoming cascade in place of dest (D14, log entry 28). -/
def Obligations.AniInvertsTheDestOperand : Prop :=
  FormsDecode 0x65 .ani .aniI .kani .kaniI ∧
  FormsRun .ani .aniI .kani .kaniI 1 (fun _ => aniValue) (drawn (.logic .ani) aniValue)

/-- The result of NND (R177). -/
def Sys2Proof.Claims.nndValue (dv sv : Word) : Word := ~~~(dv &&& sv)

/-- NND, NND#, KNND, KNND# (R177, R179): encoding, result, flags, frame, completion. That N and Z are written and C and V a draw is the spec's decision D12 (log entry 27). Further choices: immediates are zero-extended (D9, log entry 25), a K form after a K form where the launch allows it (log entry 7), the incoming cascade in place of dest (D14, log entry 28). -/
def Obligations.NndIsNotAnd : Prop :=
  FormsDecode 0x66 .nnd .nndI .knnd .knndI ∧
  FormsRun .nnd .nndI .knnd .knndI 1 (fun _ => nndValue) (drawn (.logic .nnd) nndValue)

/-- The result of NAI (R178). -/
def Sys2Proof.Claims.naiValue (dv sv : Word) : Word := dv ||| ~~~sv

/-- NAI, NAI#, KNAI, KNAI# (R178, R179): encoding, result, flags, frame, completion. That N and Z are written and C and V a draw is the spec's decision D12 (log entry 27). Further choices: immediates are zero-extended (D9, log entry 25), a K form after a K form where the launch allows it (log entry 7), the incoming cascade in place of dest (D14, log entry 28). -/
def Obligations.NaiIsDestOrNotSource : Prop :=
  FormsDecode 0x67 .nai .naiI .knai .knaiI ∧
  FormsRun .nai .naiI .knai .knaiI 1 (fun _ => naiValue) (drawn (.logic .nai) naiValue)

/-- A cascade instruction directly after a cascade instruction (R134), where the launch does not allow it: refused. The parameter cascadeChain is the model's own (log entry 7). -/
def Obligations.CascadeChainIsRefused : Prop :=
  ∀ (i : Instr) (s : State), IsCascade i → s.cascValid = true → s.cfg.cascadeChain = .refuse →
    exec i s = .refused .cascadeChain

/-- R133: an instruction that is not of the MATH, SHIFT or LOGIC groups does what it would do without the incoming cascade, and a completed one leaves no cascade. -/
def Obligations.IncompatibleFollowerLosesTheCascade : Prop :=
  ∀ (i : Instr) (s : State), ¬ FormatA i →
    exec i s = exec i { s with cascValid := false } ∧ ∀ t, exec i s = .next t → t.cascValid = false

/-- R131, R132: dest2 := (dest1 KOP source1) OP source2, with a SUB after a KSUB (no operation that commutes). -/
def Obligations.CascadeFeedsTheDestOperand : Prop :=
  ∀ (s : State) (d1 s1 d2 s2 : Reg), s.cascValid = false →
    ∃ t u, exec (.ksub d1 s1) s = .next t ∧ exec (.sub d2 s2) t = .next u ∧ t.cascValid = true ∧ u.cascValid = false ∧
      (d2 ≠ 15 → u.readReg d2 = s.readReg d1 - s.readReg s1 - s.readReg s2) ∧
      ∀ n, n ≠ d2 → u.readReg n = s.readReg n

/-- R136, R100: after KSUB a,b the named conditions compare the two values, signed and unsigned, and no register has changed. -/
def Obligations.CompareThenCondition : Prop :=
  ∀ (s : State) (a b : Reg), s.cascValid = false →
    ∃ t, exec (.ksub a b) s = .next t ∧ (∀ n, t.readReg n = s.readReg n) ∧
      (condHolds ⟨.zero, true⟩ t.status = true ↔ s.readReg a = s.readReg b) ∧
      (condHolds ⟨.zero, false⟩ t.status = true ↔ s.readReg a ≠ s.readReg b) ∧
      (condHolds ⟨.less, true⟩ t.status = true ↔ (s.readReg a).toInt < (s.readReg b).toInt) ∧
      (condHolds ⟨.less, false⟩ t.status = true ↔ (s.readReg b).toInt ≤ (s.readReg a).toInt) ∧
      (condHolds ⟨.lessOrEqual, true⟩ t.status = true ↔ (s.readReg a).toInt ≤ (s.readReg b).toInt) ∧
      (condHolds ⟨.lessOrEqual, false⟩ t.status = true ↔ (s.readReg b).toInt < (s.readReg a).toInt) ∧
      (condHolds ⟨.lowerOrSame, true⟩ t.status = true ↔ (s.readReg a).toNat ≤ (s.readReg b).toNat) ∧
      (condHolds ⟨.lowerOrSame, false⟩ t.status = true ↔ (s.readReg b).toNat < (s.readReg a).toNat)

/-- R103, with the conditions of R100. That bit 7 of the mask is the one of skip0 is the spec's reading (R104, decision D6, log entry 22). -/
def Obligations.SkipOrsItsBits : Prop :=
  ∀ (c : Cond) (m : BitVec 8) (s : State),
    (∀ rest, decode ((0x0#4 ++ condBits c ++ m) :: rest) = .ok (.skip c m, rest)) ∧
    ∃ t, exec (.skip c m) s = .next t ∧ Apart s t ∧ KeepsRegs s t ∧ KeepsMem s t ∧ Advanced s t 2 ∧
      (Condition c s.status → t.status = { s.status with skip := s.status.skip ||| m }) ∧
      (¬ Condition c s.status → t.status = s.status) ∧
      t.stack = s.stack ∧ t.cascValid = false ∧ t.draws = s.draws

/-- R101, R102, with the conditions of R100 and the parameters PC_VISIBLE, BRANCH_SCALE, SKIP_CLEAR_UNTAKEN (decisions D1, D2, D3, D7, log entries 19, 20, 23). -/
def Obligations.BranchAddsItsOffset : Prop :=
  ∀ (c : Cond) (off : BitVec 8) (s : State),
    (∀ rest, decode ((0x1#4 ++ condBits c ++ off) :: rest) = .ok (.branch c off, rest)) ∧
    ∃ t, exec (.branch c off) s = .next t ∧ Apart s t ∧ KeepsRegs s t ∧ KeepsMem s t ∧
      t.pc.toNat / 2 ^ 28 = s.pc.toNat / 2 ^ 28 ∧
      (Condition c s.status →
        (t.pc.toNat : Int) % 2 ^ 28 =
          (s.pc.toNat + (if s.cfg.pcVisible = .next then 2 else 0) +
            (if s.cfg.branchScale = .two then 2 else 1) * off.toInt) % 2 ^ 28 ∧
        t.status = { s.status with skip := 0 }) ∧
      (¬ Condition c s.status →
        t.pc.toNat % 2 ^ 28 = (s.pc.toNat + 2) % 2 ^ 28 ∧
        t.status = { s.status with skip := if s.cfg.skipClearUntaken then 0 else s.status.skip }) ∧
      t.stack = s.stack ∧ t.cascValid = false ∧ t.draws = s.draws

/-- LD, LD# (R48, R190, R191): address, value, frame, completion. Choices of the spec and the model: the byte order (D11, log entry 26), the default TaskVector and TaskOfRef (D19, D20, log entry 32), base kind 11 as kind 00 (D21, log entry 33), a first-kind base passes the access check (log entry 18), Valid (D23, log entry 35), zero-extended immediates (D9, log entry 25); the direction of the shift and the fill (D22, log entry 34). -/
def Obligations.LoadDeliversTheShiftedWord : Prop :=
  ∀ (s : State) (b r : Reg),
    (∀ o, LoadRuns (.ld b r o) s r (s.readReg b) (s.readReg o) 2) ∧
    ∀ m, LoadRuns (.ldI b r m) s r (s.readReg b) (immediate s.cfg.imm32Order m) (immBytes m)

/-- ST, ST# (R190, R192): address, bytes, frame, completion. Choices of the spec and the model: the byte order (D11, log entry 26), the default TaskVector and TaskOfRef (D19, D20, log entry 32), base kind 11 as kind 00 (D21, log entry 33), a first-kind base passes the access check (log entry 18), Valid (D23, log entry 35), zero-extended immediates (D9, log entry 25); a ST to a misaligned address stops (D22, log entry 34) and is not of this statement. -/
def Obligations.StoreWritesItsFourBytes : Prop :=
  ∀ (s : State) (b r : Reg),
    (∀ o, StoreRuns (.st b r o) s r (s.readReg b) (s.readReg o) 2) ∧
    ∀ m, StoreRuns (.stI b r m) s r (s.readReg b) (immediate s.cfg.imm32Order m) (immBytes m)

/-- STB, STB# (R50, R190, R193): address, byte, frame, completion. Choices of the spec and the model: the byte order (D11, log entry 26), the default TaskVector and TaskOfRef (D19, D20, log entry 32), base kind 11 as kind 00 (D21, log entry 33), a first-kind base passes the access check (log entry 18), Valid (D23, log entry 35), zero-extended immediates (D9, log entry 25); STB is checked as ST is (R52, log entry 18). -/
def Obligations.StoreByteWritesOneByte : Prop :=
  ∀ (s : State) (b r : Reg),
    (∀ o, StoreByteRuns (.stb b r o) s r (s.readReg b) (s.readReg o) 2) ∧
    ∀ m, StoreByteRuns (.stbI b r m) s r (s.readReg b) (immediate s.cfg.imm32Order m) (immBytes m)

/-- R52, R194, R240, R242: where LD, ST, STB stop and with which fault. That an unwritten byte stops a LD is the model's choice among those of R32 (log entry 5). -/
def Obligations.MemoryChecksInOrder : Prop :=
  ∀ (s : State) (b r : Reg),
    (∀ o, LoadStops (.ld b r o) s (s.readReg b) (s.readReg o) ∧ StoreStops (.st b r o) s (s.readReg b) (s.readReg o) ∧
      StoreByteStops (.stb b r o) s (s.readReg b) (s.readReg o)) ∧
    ∀ m, LoadStops (.ldI b r m) s (s.readReg b) (immediate s.cfg.imm32Order m) ∧
      StoreStops (.stI b r m) s (s.readReg b) (immediate s.cfg.imm32Order m) ∧
      StoreByteStops (.stbI b r m) s (s.readReg b) (immediate s.cfg.imm32Order m)

/-- R47, R48, R55: a ST followed by a LD at the same operands, register or immediate, returns the value stored, in either byte order (log entry 26). -/
def Obligations.StoredWordLoadsBack : Prop :=
  ∀ (s t : State) (b r d : Reg),
    (∀ o, exec (.st b r o) s = .next t → LoadsBack (.ld b d o) s t r d) ∧
    ∀ m, exec (.stI b r m) s = .next t → LoadsBack (.ldI b d m) s t r d

/-- JUMPL, JUMPL# (R210, R211, R212, R230): link, target, skip bits, frame, completion. Choices of the spec: the link under PC_VISIBLE (D1, log entry 19), all 32 bits saved and loaded (D3, D25, log entries 20 and 36), both operands read before the link is written (D25, log entry 36), the skip bits cleared (D7, log entry 23). -/
def Obligations.JumplLinksAndJumps : Prop :=
  ∀ (s : State) (b l : Reg),
    (∀ o, JumpRuns (.jumpl b l o) s l (s.readReg b) (s.readReg o) 2) ∧
    ∀ e1 e2, JumpRuns (.jumplI b l e1 e2) s l (s.readReg b) (immediate s.cfg.imm32Order (.long e1 e2)) 6

/-- R214, R216: JUMPL and JUMPL# with an object address as base or offset value are a SEND, which is refused. -/
def Obligations.ObjectOperandMakesASend : Prop :=
  ∀ (s : State) (b l : Reg),
    (∀ o, (ObjectAddress (s.readReg b) ∨ ObjectAddress (s.readReg o)) → exec (.jumpl b l o) s = .refused .sendUnmodelled) ∧
    ∀ e1 e2, (ObjectAddress (s.readReg b) ∨ ObjectAddress (immediate s.cfg.imm32Order (.long e1 e2))) →
      exec (.jumplI b l e1 e2) s = .refused .sendUnmodelled

/-- FADD, FSUB, FMUL, FDIV, TADD, TSUB, EXT16 (R217, R219 to R222, R226 to R228), each where Coproc gives its own code a meaning (which codes have one is open, log entry 3). Choices of the spec and the model: flags and skip bits unchanged where the source is silent (D12, D27, log entry 15), the result drawn afresh at each use (log entry 15), 16 bit codes with a meaning (log entry 14). -/
def Obligations.CoprocessorResultGoesToDest : Prop :=
  ∀ (s : State) (b d : Reg),
    (0 ∈ s.cfg.coproc → CoprocRuns (.fadd b d) s (.short 0) b d 2) ∧
    (1 ∈ s.cfg.coproc → CoprocRuns (.fsub b d) s (.short 1) b d 2) ∧
    (2 ∈ s.cfg.coproc → CoprocRuns (.fmul b d) s (.short 2) b d 2) ∧
    (3 ∈ s.cfg.coproc → CoprocRuns (.fdiv b d) s (.short 3) b d 2) ∧
    (12 ∈ s.cfg.coproc → CoprocRuns (.tadd b d) s (.short 12) b d 2) ∧
    (13 ∈ s.cfg.coproc → CoprocRuns (.tsub b d) s (.short 13) b d 2) ∧
    ∀ e, (s.cfg.coproc16 = .everyCode ∨ ∃ cs, s.cfg.coproc16 = .only cs ∧ e ∈ cs) →
      CoprocRuns (.ext16 b d e) s (.ext e) b d 4

/-- R217, R225, R228, R229: RTN and the unassigned codes in every state, the others where Coproc gives them no meaning. -/
def Obligations.ExtendedWithoutMeaningIsRefused : Prop :=
  ∀ (s : State) (b d : Reg),
    exec (.extReserved6 b d) s = .refused .reservedExtended ∧ exec (.extReserved7 b d) s = .refused .reservedExtended ∧
    exec (.extReserved8 b d) s = .refused .reservedExtended ∧ exec (.extReserved9 b d) s = .refused .reservedExtended ∧
    exec (.extReservedA b d) s = .refused .reservedExtended ∧ exec (.extReservedB b d) s = .refused .reservedExtended ∧
    exec (.rtn b d) s = .refused .rtnUnmodelled ∧
    (0 ∉ s.cfg.coproc → exec (.fadd b d) s = .refused .reservedExtended) ∧
    (1 ∉ s.cfg.coproc → exec (.fsub b d) s = .refused .reservedExtended) ∧
    (2 ∉ s.cfg.coproc → exec (.fmul b d) s = .refused .reservedExtended) ∧
    (3 ∉ s.cfg.coproc → exec (.fdiv b d) s = .refused .reservedExtended) ∧
    (12 ∉ s.cfg.coproc → exec (.tadd b d) s = .refused .reservedExtended) ∧
    (13 ∉ s.cfg.coproc → exec (.tsub b d) s = .refused .reservedExtended) ∧
    ∀ e, (s.cfg.coproc16 = .noCode ∨ ∃ cs, s.cfg.coproc16 = .only cs ∧ e ∉ cs) →
      exec (.ext16 b d e) s = .refused .reservedExtended

/-- R223: within a block of 16 words, STK completes and the names slide; no content moves. The formula of SP is the spec's derivation from the source's two examples (D28, log entry 38). -/
def Obligations.StkRenamesWithinABlock : Prop :=
  ∀ (s : State) (src d : Reg), slidSp s src d / 16 = s.stack.sp.toNat / 16 →
    ∃ t, exec (.stk src d) s = .next t ∧ StkLeaves s src d t ∧ t.status = s.status ∧ t.draws = s.draws ∧
      Renames s src d t ∧ (src ≠ 15 → d ≠ 15 → t.readReg d = s.readReg src)

/-- R224, R243: across a block boundary, with a StkReload: no more frames, or the forced bank and the renaming; without one, refused. That StkReload moves no word of register memory is the model's choice (log entry 8). -/
def Obligations.StkAcrossABlock : Prop :=
  ∀ (s : State) (src d : Reg), slidSp s src d / 16 ≠ s.stack.sp.toNat / 16 →
    (s.cfg.stkReload = .absent → exec (.stk src d) s = .refused .stkAcrossBlock) ∧
    (s.cfg.stkReload = .supplied →
      match Config.stkReloadBank s.draws s.status.bankA s.status.bankB s.stack.sp (BitVec.ofNat 14 (slidSp s src d)) with
      | none => exec (.stk src d) s = .fault .noMoreFrames
      | some bank =>
        ∃ t, exec (.stk src d) s = .next t ∧ StkLeaves s src d t ∧ t.draws = s.draws + 1 ∧
          (d.toNat < src.toNat → t.status = { s.status with bankA := s.status.bankB, bankB := bank }) ∧
          (src.toNat < d.toNat → t.status = { s.status with bankA := bank, bankB := s.status.bankA }) ∧
          Renames s src d t)

/-- R11, R12, R13, R14: the mapping (the spec derives its formula), that it is one to one, the zero register. The physical write of R15 is decision D35 (log entry 13). -/
def Obligations.VisibleRegistersAreSixteenWords : Prop :=
  ∀ (s : State) (n m : Reg) (v : Word),
    (s.stack.sp.toNat % 16 + n.toNat < 16 →
      s.phys n = 16 * s.status.bankA.toNat + (s.stack.sp.toNat % 16 + n.toNat)) ∧
    (16 ≤ s.stack.sp.toNat % 16 + n.toNat →
      s.phys n = 16 * s.status.bankB.toNat + (s.stack.sp.toNat % 16 + n.toNat - 16)) ∧
    (s.phys n = s.phys m → n = m) ∧ s.phys n < 16384 ∧
    s.readReg 15 = 0 ∧ (n ≠ 15 → s.readReg n = s.readPhys (s.phys n)) ∧
    (s.writeReg 15 v).readReg n = s.readReg n ∧ (s.writeReg 15 v).readPhys (s.phys 15) = v

/-- R74 and R80, the encodings of format M and of group 9 with every operand, and words of all sixteen groups of R71 (of the vectors D1 to D27 of 95_test_vectors.md, two of them written out from R74). -/
def Obligations.WordsOfTheSpecDecode : Prop :=
  decodeTableWord 16 0x01C0 = some (.skip ⟨.zero, true⟩ 0xC0) ∧
  decodeTableWord 16 0x10FC = some (.branch ⟨.zero, false⟩ 0xFC) ∧
  decodeTableWord 16 0x2412 = some (.add 1 2) ∧
  decodeTableWord 48 0x12345678341F = some (.addI 1 (.long 0x5678 0x1234)) ∧
  decodeTableWord 32 0x01003F1E = some (.ksubI 1 (.word 0x0100)) ∧
  decodeTableWord 16 0x4412 = some (.div 1 2) ∧
  decodeTableWord 16 0x5314 = some (.rotI 1 (.short 4)) ∧
  decodeTableWord 16 0x6512 = some (.ani 1 2) ∧
  decodeTableWord 16 0x85EF = some (.jumpl 5 14 15) ∧
  decodeTableWord 48 0x000003009FEF = some (.jumplI 15 14 0x0300 0x0000) ∧
  decodeTableWord 16 0x9120 = some (.fadd 1 2) ∧
  decodeTableWord 16 0x9054 = some (.stk 0 5) ∧
  decodeTableWord 32 0x1234912E = some (.ext16 1 2 0x1234) ∧
  decodeTableWord 16 0xD141 = some (.ldI 1 4 (.short 1)) ∧
  decodeTableWord 16 0xF120 = some (.stI 1 2 (.short 0)) ∧
  decodeTableWord 16 0xB131 = some (.stbI 1 3 (.short 1)) ∧
  decodeTableWord 32 0x00FF745E = some (.andI 5 (.word 0x00FF)) ∧
  decodeTableWord 16 0xA131 = some (.stb 1 3 1) ∧
  decodeTableWord 16 0xC142 = some (.ld 1 4 2) ∧
  decodeTableWord 16 0xEF23 = some (.st 15 2 3) ∧
  FormatMDecodes 0xA .stb .stbI ∧ FormatMDecodes 0xC .ld .ldI ∧ FormatMDecodes 0xE .st .stI ∧
  (∀ b l o rest, decode ((0x8#4 ++ b ++ l ++ o) :: rest) = .ok (.jumpl b l o, rest)) ∧
  (∀ b l e1 e2 rest, decode ((0x9#4 ++ b ++ l ++ 15#4) :: e1 :: e2 :: rest) = .ok (.jumplI b l e1 e2, rest)) ∧
  ExtendedDecodes 0 .fadd ∧ ExtendedDecodes 1 .fsub ∧ ExtendedDecodes 2 .fmul ∧ ExtendedDecodes 3 .fdiv ∧
  ExtendedDecodes 4 .stk ∧ ExtendedDecodes 5 .rtn ∧
  ExtendedDecodes 6 .extReserved6 ∧ ExtendedDecodes 7 .extReserved7 ∧ ExtendedDecodes 8 .extReserved8 ∧
  ExtendedDecodes 9 .extReserved9 ∧ ExtendedDecodes 10 .extReservedA ∧ ExtendedDecodes 11 .extReservedB ∧
  ExtendedDecodes 12 .tadd ∧ ExtendedDecodes 13 .tsub ∧
  ∀ b d e rest, decode ((0x9#4 ++ b ++ d ++ 14#4) :: e :: rest) = .ok (.ext16 b d e, rest)

/-- Every well-formed instruction: decoding its words, with any words after them, gives it back with those words left (R72 to R76, R79, R80). -/
def Obligations.DecodeOfEncodeIsTheInstruction : Prop :=
  ∀ (i : Instr) (rest : List Word16), i.wellFormed = true → decode (encode i ++ rest) = .ok (i, rest)

/-- No two sequences of words are one instruction, and only well-formed instructions are decoded. -/
def Obligations.EncodeOfDecodeIsTheWords : Prop :=
  ∀ (ws rest : List Word16) (i : Instr), decode ws = .ok (i, rest) → i.wellFormed = true ∧ ws = encode i ++ rest

/-- R70: every first word begins an instruction, its length told by the word alone. -/
def Obligations.EveryFirstWordIsAnInstruction : Prop :=
  ∀ (w e1 e2 : Word16) (rest : List Word16),
    (w.toNat / 2 ^ 13 = 0 ∨ w.getLsbD 12 = false ∨ w.toNat % 16 ≤ 13 →
      lengthOf w = 2 ∧ ∃ i, decode (w :: rest) = .ok (i, rest)) ∧
    (w.toNat / 2 ^ 13 ≠ 0 → w.getLsbD 12 = true → w.toNat % 16 = 14 →
      lengthOf w = 4 ∧ decode [w] = .error .extensionMissing ∧ ∃ i, decode (w :: e1 :: rest) = .ok (i, rest)) ∧
    (w.toNat / 2 ^ 13 ≠ 0 → w.getLsbD 12 = true → w.toNat % 16 = 15 →
      lengthOf w = 6 ∧ decode [w, e1] = .error .extensionMissing ∧ ∃ i, decode (w :: e1 :: e2 :: rest) = .ok (i, rest))

/-- R28: the environment's moves, the choice of the task, the shift of the skip bits, then exec of the decoded instruction. -/
def Obligations.StepRunsTheDecodedInstruction : Prop :=
  ∀ (s u : State) (w0 : Word16) (i : Instr) (ws rest : List Word16),
    Runs s u → CanFetch u → u.status.skip.getLsbD 7 = false →
    textWord u (u.pc.toNat) = some w0 →
    (ws = [w0] ∨
      (∃ w1, textWord u (u.pc.toNat + 2) = some w1 ∧ ws = [w0, w1]) ∨
      ∃ w1 w2, textWord u (u.pc.toNat + 2) = some w1 ∧ textWord u (u.pc.toNat + 4) = some w2 ∧ ws = [w0, w1, w2]) →
    decode ws = .ok (i, rest) →
    ∃ v, Shifted u v ∧ step s = exec i v

/-- R22, R28, R78, R135: with skip0 set the step only shifts the skip bits, drops the cascade and passes the whole instruction by. Choices of the spec: the extension words are passed by and the cascade is lost (D8, log entry 24), 0 enters skip7 (D5, log entry 22). -/
def Obligations.SkippedInstructionIsANoop : Prop :=
  ∀ (s u : State) (w : Word16), Runs s u → CanFetch u → u.status.skip.getLsbD 7 = true →
    textWord u (u.pc.toNat) = some w →
    ∃ t, step s = .next t ∧ Apart u t ∧ KeepsRegs u t ∧ KeepsMem u t ∧ Advanced u t (lengthOf w) ∧
      (∃ v, Shifted u v ∧ t.status = v.status) ∧ t.stack = u.stack ∧ t.cascValid = false ∧ t.draws = u.draws

/-- R20, R28, R251, R252: an odd PC, then the modes, then the banks (the last by item U20, log entry 9), then a missing word of program text (log entry 5). -/
def Obligations.FetchChecksInOrder : Prop :=
  ∀ s u : State, Runs s u →
    (u.pc.toNat % 2 = 1 → step s = .fault (.misalignedFetch u.pc)) ∧
    (u.pc.toNat % 2 = 0 → (u.stack.p = true ∨ u.stack.b = true) → step s = .refused .modeUnmodelled) ∧
    (u.pc.toNat % 2 = 0 → u.stack.p = false → u.stack.b = false →
      (u.cfg.regBlocks.val ≤ u.status.bankA.toNat ∨ u.cfg.regBlocks.val ≤ u.status.bankB.toNat) →
      step s = .fault .bankOutOfRange) ∧
    ∀ k : Nat, CanFetch u → (∀ j, j < k → textWord u (u.pc.toNat + 2 * j) ≠ none) →
      textWord u (u.pc.toNat + 2 * k) = none →
      (k = 0 ∨ u.status.skip.getLsbD 7 = false ∧ ∃ w, textWord u u.pc.toNat = some w ∧ 2 * k < lengthOf w) →
      ∃ a : CodeAddr, a.toNat = (u.pc.toNat + 2 * k) % 2 ^ 28 ∧ step s = .fault (.unwrittenRead (.code a))

/-- R247, R249: not directly after a cascade, the ready hardware task of the greatest number runs. -/
def Obligations.HighestHardwareTaskRuns : Prop :=
  ∀ (s : State) (k : TaskNo), s.cascValid = false → 8 ≤ k.val → s.arrive.tasks[k].stack.r = true →
    (∀ j : TaskNo, k < j → s.arrive.tasks[j].stack.r = false) →
    Runs s { s.arrive with cur := k }

/-- R248, R258: with no hardware task ready, some ready software task runs; with none at all, nothing happens; and a software task that stays ready is eventually chosen: the weak fairness is the spec's decision D30 (log entry 11). -/
def Obligations.SoftwareTaskOrIdle : Prop :=
  (∀ s : State, s.cascValid = false → (∀ k : TaskNo, 8 ≤ k.val → s.arrive.tasks[k].stack.r = false) →
    ((∃ j : TaskNo, s.arrive.tasks[j].stack.r = true) →
      ∃ (k : TaskNo) (u : State), k.val < 8 ∧ s.arrive.tasks[k].stack.r = true ∧ Runs s u ∧
        u = { s.arrive with cur := k, turns := u.turns, draws := u.draws }) ∧
    ((∀ j : TaskNo, s.arrive.tasks[j].stack.r = false) → step s = .next s.arrive)) ∧
  ∀ (run : Nat → State) (k : TaskNo), k.val < 8 → (∀ n, step (run n) = .next (run (n + 1))) →
    (∀ n, (run n).staysReady k) → (∀ n, ∃ m, n ≤ m ∧ (run m).picksSoftware) →
    ∀ n, ∃ m u, n ≤ m ∧ (run m).picksSoftware ∧ Runs (run m) u ∧ u.cur = k

/-- R139, R249: after an executed cascade instruction the same task runs next, whatever R bits the environment changes. -/
def Obligations.NoTaskSwitchAfterACascade : Prop :=
  ∀ (s t : State) (i : Instr), IsCascade i → exec i s = .next t →
    t.cascValid = true ∧ t.cur = s.cur ∧ ∀ moves : List (List ReadyMove),
      ∃ u, Runs { t with env := moves } u ∧ u.cur = s.cur

/-- The three memories stay in canonical form and inside their address spaces (rules R13, R40, R41). -/
def Obligations.StepKeepsTheInvariant : Prop :=
  ∀ s t : State, s.Inv → step s = .next t → t.Inv

/-- R31, R270, and that reset meets the invariant. The values reset names beyond the R bits are the model's choice (log entry 4) and are not stated here. -/
def Obligations.ResetLeavesTaskFifteenReady : Prop :=
  State.reset.Inv ∧ State.reset.tasks[(15 : TaskNo)].stack.r = true ∧
  (∀ k : TaskNo, k ≠ 15 → State.reset.tasks[k].stack.r = false) ∧
  ∃ u, Runs State.reset u ∧ u.cur = 15

/-- R57: IMem is fixed for the whole run (decision D24, log entry 16), and so are the launch parameters. -/
def Obligations.StepWritesNoProgramTextOrParameter : Prop :=
  ∀ s t : State, step s = .next t → t.imem = s.imem ∧ t.cfg = s.cfg

/-- R29, R245, R246: a step changes PC, STATUS and SP of the running task only, STACK.P, B and Task of none, and R bits only by the environment's moves (log entry 10). That task 15 has no means to reach the PC, STATUS and STACK groups is the model's assumption (log entry 43). -/
def Obligations.OnlyTheRunningTaskChanges : Prop :=
  ∀ (s t : State) (k : TaskNo), step s = .next t →
    t.tasks[k].stack.p = s.tasks[k].stack.p ∧ t.tasks[k].stack.b = s.tasks[k].stack.b ∧
    t.tasks[k].stack.task = s.tasks[k].stack.task ∧ t.tasks[k].stack.r = s.arrive.tasks[k].stack.r ∧
    (k ≠ t.cur → t.tasks[k].pc = s.tasks[k].pc ∧ t.tasks[k].status = s.tasks[k].status ∧
      t.tasks[k].stack.sp = s.tasks[k].stack.sp)

/-- R24, R29: BankA, BankB and SP change by STK only. -/
def Obligations.OnlyStkMovesTheMapping : Prop :=
  ∀ (s t : State) (i : Instr), exec i s = .next t → (∀ src d, i ≠ .stk src d) →
    t.status.bankA = s.status.bankA ∧ t.status.bankB = s.status.bankB ∧ t.stack = s.stack ∧
      ∀ n, t.phys n = s.phys n

/-- R23, R33: SKIP, BRANCH, LD, ST, STB, JUMPL and the extended instructions leave N, Z, C, V unchanged: the spec's decision D12 where the source is silent (log entry 27). -/
def Obligations.OnlyFormatAWritesFlags : Prop :=
  ∀ (s t : State) (i : Instr), exec i s = .next t → ¬ FormatA i →
    t.status.n = s.status.n ∧ t.status.z = s.status.z ∧ t.status.c = s.status.c ∧ t.status.v = s.status.v

/-- R41, R50 to R52, R192, R193: no instruction but ST, ST#, STB, STB# changes a byte of data memory. -/
def Obligations.OnlyStoresWriteMemory : Prop :=
  ∀ (s t : State) (i : Instr), exec i s = .next t →
    (∀ b r o, i ≠ .st b r o ∧ i ≠ .stb b r o) → (∀ b r m, i ≠ .stI b r m ∧ i ≠ .stbI b r m) →
    ∀ a, t.readByte a = s.readByte a

/-- R21, R25: the 32 bit words of STATUS and STACK hold their fields at the spec's places and lose none. -/
def Obligations.StatusAndStackLayout : Prop :=
  (∀ st : Status, st.toWord.toNat =
    st.skip.toNat * 2 ^ 24 + st.bankA.toNat * 2 ^ 14 + st.bankB.toNat * 2 ^ 4 + asNat st.n * 8 + asNat st.z * 4 +
      asNat st.c * 2 + asNat st.v ∧ statusOfWord st.toWord = st) ∧
  (∀ st : Stack, st.toWord.toNat =
    asNat st.p * 2 ^ 31 + asNat st.b * 2 ^ 30 + st.task.toNat * 2 ^ 15 + asNat st.r * 2 ^ 14 + st.sp.toNat ∧
      stackOfWord st.toWord = st)
end

