-- ==== Sys2Proof/Laws/State.lean ====
section
/-! SUPPORT. What each named update of the state does to each field: one lemma per field per update. The running task's
registers are read through `pc`, `status` and `stack`. -/

namespace Sys2Proof.Machine

/-! ### setRegs -/

@[simp] theorem State.setRegs_cfg (s : State) (r : TaskRegs) : (s.setRegs r).cfg = s.cfg := rfl
@[simp] theorem State.setRegs_regMem (s : State) (r : TaskRegs) : (s.setRegs r).regMem = s.regMem := rfl
@[simp] theorem State.setRegs_mem (s : State) (r : TaskRegs) : (s.setRegs r).mem = s.mem := rfl
@[simp] theorem State.setRegs_imem (s : State) (r : TaskRegs) : (s.setRegs r).imem = s.imem := rfl
@[simp] theorem State.setRegs_cascValid (s : State) (r : TaskRegs) : (s.setRegs r).cascValid = s.cascValid := rfl
@[simp] theorem State.setRegs_cur (s : State) (r : TaskRegs) : (s.setRegs r).cur = s.cur := rfl
@[simp] theorem State.setRegs_turns (s : State) (r : TaskRegs) : (s.setRegs r).turns = s.turns := rfl
@[simp] theorem State.setRegs_env (s : State) (r : TaskRegs) : (s.setRegs r).env = s.env := rfl
@[simp] theorem State.setRegs_draws (s : State) (r : TaskRegs) : (s.setRegs r).draws = s.draws := rfl
@[simp] theorem State.setRegs_pc (s : State) (r : TaskRegs) : (s.setRegs r).pc = r.pc := by
  simp [State.pc, State.regs, State.setRegs]
@[simp] theorem State.setRegs_status (s : State) (r : TaskRegs) : (s.setRegs r).status = r.status := by
  simp [State.status, State.regs, State.setRegs]
@[simp] theorem State.setRegs_stack (s : State) (r : TaskRegs) : (s.setRegs r).stack = r.stack := by
  simp [State.stack, State.regs, State.setRegs]
theorem State.setRegs_other (s : State) (r : TaskRegs) (k : TaskNo) (h : k ≠ s.cur) :
    (s.setRegs r).tasks[k] = s.tasks[k] := by
  have : (s.cur : Nat) ≠ k := fun e => h (Fin.ext e.symm)
  simp [State.setRegs, this]

/-! ### setPc -/

@[simp] theorem State.setPc_cfg (s : State) (p : BitVec 32) : (s.setPc p).cfg = s.cfg := rfl
@[simp] theorem State.setPc_regMem (s : State) (p : BitVec 32) : (s.setPc p).regMem = s.regMem := rfl
@[simp] theorem State.setPc_mem (s : State) (p : BitVec 32) : (s.setPc p).mem = s.mem := rfl
@[simp] theorem State.setPc_imem (s : State) (p : BitVec 32) : (s.setPc p).imem = s.imem := rfl
@[simp] theorem State.setPc_cascValid (s : State) (p : BitVec 32) : (s.setPc p).cascValid = s.cascValid := rfl
@[simp] theorem State.setPc_cur (s : State) (p : BitVec 32) : (s.setPc p).cur = s.cur := rfl
@[simp] theorem State.setPc_turns (s : State) (p : BitVec 32) : (s.setPc p).turns = s.turns := rfl
@[simp] theorem State.setPc_env (s : State) (p : BitVec 32) : (s.setPc p).env = s.env := rfl
@[simp] theorem State.setPc_draws (s : State) (p : BitVec 32) : (s.setPc p).draws = s.draws := rfl
@[simp] theorem State.setPc_pc (s : State) (p : BitVec 32) : (s.setPc p).pc = p := by
  rw [State.setPc, State.setRegs_pc]
@[simp] theorem State.setPc_status (s : State) (p : BitVec 32) : (s.setPc p).status = s.status := by
  rw [State.setPc, State.setRegs_status]; rfl
@[simp] theorem State.setPc_stack (s : State) (p : BitVec 32) : (s.setPc p).stack = s.stack := by
  rw [State.setPc, State.setRegs_stack]; rfl
theorem State.setPc_other (s : State) (p : BitVec 32) (k : TaskNo) (h : k ≠ s.cur) :
    (s.setPc p).tasks[k] = s.tasks[k] := State.setRegs_other s _ k h

/-! ### setStatus -/

@[simp] theorem State.setStatus_cfg (s : State) (st : Status) : (s.setStatus st).cfg = s.cfg := rfl
@[simp] theorem State.setStatus_regMem (s : State) (st : Status) : (s.setStatus st).regMem = s.regMem := rfl
@[simp] theorem State.setStatus_mem (s : State) (st : Status) : (s.setStatus st).mem = s.mem := rfl
@[simp] theorem State.setStatus_imem (s : State) (st : Status) : (s.setStatus st).imem = s.imem := rfl
@[simp] theorem State.setStatus_cascValid (s : State) (st : Status) : (s.setStatus st).cascValid = s.cascValid := rfl
@[simp] theorem State.setStatus_cur (s : State) (st : Status) : (s.setStatus st).cur = s.cur := rfl
@[simp] theorem State.setStatus_turns (s : State) (st : Status) : (s.setStatus st).turns = s.turns := rfl
@[simp] theorem State.setStatus_env (s : State) (st : Status) : (s.setStatus st).env = s.env := rfl
@[simp] theorem State.setStatus_draws (s : State) (st : Status) : (s.setStatus st).draws = s.draws := rfl
@[simp] theorem State.setStatus_pc (s : State) (st : Status) : (s.setStatus st).pc = s.pc := by
  rw [State.setStatus, State.setRegs_pc]; rfl
@[simp] theorem State.setStatus_status (s : State) (st : Status) : (s.setStatus st).status = st := by
  rw [State.setStatus, State.setRegs_status]
@[simp] theorem State.setStatus_stack (s : State) (st : Status) : (s.setStatus st).stack = s.stack := by
  rw [State.setStatus, State.setRegs_stack]; rfl
theorem State.setStatus_other (s : State) (st : Status) (k : TaskNo) (h : k ≠ s.cur) :
    (s.setStatus st).tasks[k] = s.tasks[k] := State.setRegs_other s _ k h

/-! ### setStack -/

@[simp] theorem State.setStack_cfg (s : State) (st : Stack) : (s.setStack st).cfg = s.cfg := rfl
@[simp] theorem State.setStack_regMem (s : State) (st : Stack) : (s.setStack st).regMem = s.regMem := rfl
@[simp] theorem State.setStack_mem (s : State) (st : Stack) : (s.setStack st).mem = s.mem := rfl
@[simp] theorem State.setStack_imem (s : State) (st : Stack) : (s.setStack st).imem = s.imem := rfl
@[simp] theorem State.setStack_cascValid (s : State) (st : Stack) : (s.setStack st).cascValid = s.cascValid := rfl
@[simp] theorem State.setStack_cur (s : State) (st : Stack) : (s.setStack st).cur = s.cur := rfl
@[simp] theorem State.setStack_turns (s : State) (st : Stack) : (s.setStack st).turns = s.turns := rfl
@[simp] theorem State.setStack_env (s : State) (st : Stack) : (s.setStack st).env = s.env := rfl
@[simp] theorem State.setStack_draws (s : State) (st : Stack) : (s.setStack st).draws = s.draws := rfl
@[simp] theorem State.setStack_pc (s : State) (st : Stack) : (s.setStack st).pc = s.pc := by
  rw [State.setStack, State.setRegs_pc]; rfl
@[simp] theorem State.setStack_status (s : State) (st : Stack) : (s.setStack st).status = s.status := by
  rw [State.setStack, State.setRegs_status]; rfl
@[simp] theorem State.setStack_stack (s : State) (st : Stack) : (s.setStack st).stack = st := by
  rw [State.setStack, State.setRegs_stack]
theorem State.setStack_other (s : State) (st : Stack) (k : TaskNo) (h : k ≠ s.cur) :
    (s.setStack st).tasks[k] = s.tasks[k] := State.setRegs_other s _ k h

/-! ### setPcAddr -/

@[simp] theorem State.setPcAddr_cfg (s : State) (a : CodeAddr) : (s.setPcAddr a).cfg = s.cfg := rfl
@[simp] theorem State.setPcAddr_regMem (s : State) (a : CodeAddr) : (s.setPcAddr a).regMem = s.regMem := rfl
@[simp] theorem State.setPcAddr_mem (s : State) (a : CodeAddr) : (s.setPcAddr a).mem = s.mem := rfl
@[simp] theorem State.setPcAddr_imem (s : State) (a : CodeAddr) : (s.setPcAddr a).imem = s.imem := rfl
@[simp] theorem State.setPcAddr_cascValid (s : State) (a : CodeAddr) : (s.setPcAddr a).cascValid = s.cascValid := rfl
@[simp] theorem State.setPcAddr_cur (s : State) (a : CodeAddr) : (s.setPcAddr a).cur = s.cur := rfl
@[simp] theorem State.setPcAddr_turns (s : State) (a : CodeAddr) : (s.setPcAddr a).turns = s.turns := rfl
@[simp] theorem State.setPcAddr_env (s : State) (a : CodeAddr) : (s.setPcAddr a).env = s.env := rfl
@[simp] theorem State.setPcAddr_draws (s : State) (a : CodeAddr) : (s.setPcAddr a).draws = s.draws := rfl
@[simp] theorem State.setPcAddr_pc (s : State) (a : CodeAddr) : (s.setPcAddr a).pc = s.pcTop ++ a := State.setPc_pc s _
@[simp] theorem State.setPcAddr_status (s : State) (a : CodeAddr) : (s.setPcAddr a).status = s.status := State.setPc_status s _
@[simp] theorem State.setPcAddr_stack (s : State) (a : CodeAddr) : (s.setPcAddr a).stack = s.stack := State.setPc_stack s _
theorem State.setPcAddr_other (s : State) (a : CodeAddr) (k : TaskNo) (h : k ≠ s.cur) :
    (s.setPcAddr a).tasks[k] = s.tasks[k] := State.setPc_other s _ k h

/-! ### advance -/

@[simp] theorem State.advance_cfg (s : State) (len : Nat) : (s.advance len).cfg = s.cfg := rfl
@[simp] theorem State.advance_regMem (s : State) (len : Nat) : (s.advance len).regMem = s.regMem := rfl
@[simp] theorem State.advance_mem (s : State) (len : Nat) : (s.advance len).mem = s.mem := rfl
@[simp] theorem State.advance_imem (s : State) (len : Nat) : (s.advance len).imem = s.imem := rfl
@[simp] theorem State.advance_cascValid (s : State) (len : Nat) : (s.advance len).cascValid = s.cascValid := rfl
@[simp] theorem State.advance_cur (s : State) (len : Nat) : (s.advance len).cur = s.cur := rfl
@[simp] theorem State.advance_turns (s : State) (len : Nat) : (s.advance len).turns = s.turns := rfl
@[simp] theorem State.advance_env (s : State) (len : Nat) : (s.advance len).env = s.env := rfl
@[simp] theorem State.advance_draws (s : State) (len : Nat) : (s.advance len).draws = s.draws := rfl
@[simp] theorem State.advance_pc (s : State) (len : Nat) : (s.advance len).pc = s.pcTop ++ (s.pcAddr + BitVec.ofNat 28 len) := State.setPcAddr_pc s _
@[simp] theorem State.advance_status (s : State) (len : Nat) : (s.advance len).status = s.status := State.setPcAddr_status s _
@[simp] theorem State.advance_stack (s : State) (len : Nat) : (s.advance len).stack = s.stack := State.setPcAddr_stack s _
theorem State.advance_other (s : State) (len : Nat) (k : TaskNo) (h : k ≠ s.cur) :
    (s.advance len).tasks[k] = s.tasks[k] := State.setPcAddr_other s _ k h

/-! ### setSkip -/

@[simp] theorem State.setSkip_cfg (s : State) (m : BitVec 8) : (s.setSkip m).cfg = s.cfg := rfl
@[simp] theorem State.setSkip_regMem (s : State) (m : BitVec 8) : (s.setSkip m).regMem = s.regMem := rfl
@[simp] theorem State.setSkip_mem (s : State) (m : BitVec 8) : (s.setSkip m).mem = s.mem := rfl
@[simp] theorem State.setSkip_imem (s : State) (m : BitVec 8) : (s.setSkip m).imem = s.imem := rfl
@[simp] theorem State.setSkip_cascValid (s : State) (m : BitVec 8) : (s.setSkip m).cascValid = s.cascValid := rfl
@[simp] theorem State.setSkip_cur (s : State) (m : BitVec 8) : (s.setSkip m).cur = s.cur := rfl
@[simp] theorem State.setSkip_turns (s : State) (m : BitVec 8) : (s.setSkip m).turns = s.turns := rfl
@[simp] theorem State.setSkip_env (s : State) (m : BitVec 8) : (s.setSkip m).env = s.env := rfl
@[simp] theorem State.setSkip_draws (s : State) (m : BitVec 8) : (s.setSkip m).draws = s.draws := rfl
@[simp] theorem State.setSkip_pc (s : State) (m : BitVec 8) : (s.setSkip m).pc = s.pc := State.setStatus_pc s _
@[simp] theorem State.setSkip_status (s : State) (m : BitVec 8) : (s.setSkip m).status = { s.status with skip := m } := State.setStatus_status s _
@[simp] theorem State.setSkip_stack (s : State) (m : BitVec 8) : (s.setSkip m).stack = s.stack := State.setStatus_stack s _
theorem State.setSkip_other (s : State) (m : BitVec 8) (k : TaskNo) (h : k ≠ s.cur) :
    (s.setSkip m).tasks[k] = s.tasks[k] := State.setStatus_other s _ k h

/-! ### setFlags -/

@[simp] theorem State.setFlags_cfg (s : State) (n z c v : Bool) : (s.setFlags n z c v).cfg = s.cfg := rfl
@[simp] theorem State.setFlags_regMem (s : State) (n z c v : Bool) : (s.setFlags n z c v).regMem = s.regMem := rfl
@[simp] theorem State.setFlags_mem (s : State) (n z c v : Bool) : (s.setFlags n z c v).mem = s.mem := rfl
@[simp] theorem State.setFlags_imem (s : State) (n z c v : Bool) : (s.setFlags n z c v).imem = s.imem := rfl
@[simp] theorem State.setFlags_cascValid (s : State) (n z c v : Bool) : (s.setFlags n z c v).cascValid = s.cascValid := rfl
@[simp] theorem State.setFlags_cur (s : State) (n z c v : Bool) : (s.setFlags n z c v).cur = s.cur := rfl
@[simp] theorem State.setFlags_turns (s : State) (n z c v : Bool) : (s.setFlags n z c v).turns = s.turns := rfl
@[simp] theorem State.setFlags_env (s : State) (n z c v : Bool) : (s.setFlags n z c v).env = s.env := rfl
@[simp] theorem State.setFlags_draws (s : State) (n z c v : Bool) : (s.setFlags n z c v).draws = s.draws := rfl
@[simp] theorem State.setFlags_pc (s : State) (n z c v : Bool) : (s.setFlags n z c v).pc = s.pc := State.setStatus_pc s _
@[simp] theorem State.setFlags_status (s : State) (n z c v : Bool) : (s.setFlags n z c v).status = { s.status with n := n, z := z, c := c, v := v } := State.setStatus_status s _
@[simp] theorem State.setFlags_stack (s : State) (n z c v : Bool) : (s.setFlags n z c v).stack = s.stack := State.setStatus_stack s _
theorem State.setFlags_other (s : State) (n z c v : Bool) (k : TaskNo) (h : k ≠ s.cur) :
    (s.setFlags n z c v).tasks[k] = s.tasks[k] := State.setStatus_other s _ k h

/-! ### shiftSkip -/

@[simp] theorem State.shiftSkip_cfg (s : State)  : (s.shiftSkip).cfg = s.cfg := rfl
@[simp] theorem State.shiftSkip_regMem (s : State)  : (s.shiftSkip).regMem = s.regMem := rfl
@[simp] theorem State.shiftSkip_mem (s : State)  : (s.shiftSkip).mem = s.mem := rfl
@[simp] theorem State.shiftSkip_imem (s : State)  : (s.shiftSkip).imem = s.imem := rfl
@[simp] theorem State.shiftSkip_cascValid (s : State)  : (s.shiftSkip).cascValid = s.cascValid := rfl
@[simp] theorem State.shiftSkip_cur (s : State)  : (s.shiftSkip).cur = s.cur := rfl
@[simp] theorem State.shiftSkip_turns (s : State)  : (s.shiftSkip).turns = s.turns := rfl
@[simp] theorem State.shiftSkip_env (s : State)  : (s.shiftSkip).env = s.env := rfl
@[simp] theorem State.shiftSkip_draws (s : State)  : (s.shiftSkip).draws = s.draws := rfl
@[simp] theorem State.shiftSkip_pc (s : State)  : (s.shiftSkip).pc = s.pc := State.setSkip_pc s _
@[simp] theorem State.shiftSkip_status (s : State)  : (s.shiftSkip).status = { s.status with skip := s.status.skip <<< 1 } := State.setSkip_status s _
@[simp] theorem State.shiftSkip_stack (s : State)  : (s.shiftSkip).stack = s.stack := State.setSkip_stack s _
theorem State.shiftSkip_other (s : State)  (k : TaskNo) (h : k ≠ s.cur) :
    (s.shiftSkip).tasks[k] = s.tasks[k] := State.setSkip_other s _ k h

/-! ### setCasc -/

@[simp] theorem State.setCasc_cfg (s : State) (b : Bool) : (s.setCasc b).cfg = s.cfg := rfl
@[simp] theorem State.setCasc_regMem (s : State) (b : Bool) : (s.setCasc b).regMem = s.regMem := rfl
@[simp] theorem State.setCasc_mem (s : State) (b : Bool) : (s.setCasc b).mem = s.mem := rfl
@[simp] theorem State.setCasc_imem (s : State) (b : Bool) : (s.setCasc b).imem = s.imem := rfl
@[simp] theorem State.setCasc_cascValid (s : State) (b : Bool) : (s.setCasc b).cascValid = b := rfl
@[simp] theorem State.setCasc_cur (s : State) (b : Bool) : (s.setCasc b).cur = s.cur := rfl
@[simp] theorem State.setCasc_turns (s : State) (b : Bool) : (s.setCasc b).turns = s.turns := rfl
@[simp] theorem State.setCasc_env (s : State) (b : Bool) : (s.setCasc b).env = s.env := rfl
@[simp] theorem State.setCasc_draws (s : State) (b : Bool) : (s.setCasc b).draws = s.draws := rfl
@[simp] theorem State.setCasc_pc (s : State) (b : Bool) : (s.setCasc b).pc = s.pc := rfl
@[simp] theorem State.setCasc_status (s : State) (b : Bool) : (s.setCasc b).status = s.status := rfl
@[simp] theorem State.setCasc_stack (s : State) (b : Bool) : (s.setCasc b).stack = s.stack := rfl
@[simp] theorem State.setCasc_tasks (s : State) (b : Bool) : (s.setCasc b).tasks = s.tasks := rfl

/-! ### bumpDraws -/

@[simp] theorem State.bumpDraws_cfg (s : State)  : (s.bumpDraws).cfg = s.cfg := rfl
@[simp] theorem State.bumpDraws_regMem (s : State)  : (s.bumpDraws).regMem = s.regMem := rfl
@[simp] theorem State.bumpDraws_mem (s : State)  : (s.bumpDraws).mem = s.mem := rfl
@[simp] theorem State.bumpDraws_imem (s : State)  : (s.bumpDraws).imem = s.imem := rfl
@[simp] theorem State.bumpDraws_cascValid (s : State)  : (s.bumpDraws).cascValid = s.cascValid := rfl
@[simp] theorem State.bumpDraws_cur (s : State)  : (s.bumpDraws).cur = s.cur := rfl
@[simp] theorem State.bumpDraws_turns (s : State)  : (s.bumpDraws).turns = s.turns := rfl
@[simp] theorem State.bumpDraws_env (s : State)  : (s.bumpDraws).env = s.env := rfl
@[simp] theorem State.bumpDraws_draws (s : State)  : (s.bumpDraws).draws = s.draws + 1 := rfl
@[simp] theorem State.bumpDraws_pc (s : State)  : (s.bumpDraws).pc = s.pc := rfl
@[simp] theorem State.bumpDraws_status (s : State)  : (s.bumpDraws).status = s.status := rfl
@[simp] theorem State.bumpDraws_stack (s : State)  : (s.bumpDraws).stack = s.stack := rfl
@[simp] theorem State.bumpDraws_tasks (s : State)  : (s.bumpDraws).tasks = s.tasks := rfl

/-! ### retire -/

@[simp] theorem State.retire_cfg (s : State) (len : Nat) : (s.retire len).cfg = s.cfg := rfl
@[simp] theorem State.retire_regMem (s : State) (len : Nat) : (s.retire len).regMem = s.regMem := rfl
@[simp] theorem State.retire_mem (s : State) (len : Nat) : (s.retire len).mem = s.mem := rfl
@[simp] theorem State.retire_imem (s : State) (len : Nat) : (s.retire len).imem = s.imem := rfl
@[simp] theorem State.retire_cascValid (s : State) (len : Nat) : (s.retire len).cascValid = false := rfl
@[simp] theorem State.retire_cur (s : State) (len : Nat) : (s.retire len).cur = s.cur := rfl
@[simp] theorem State.retire_turns (s : State) (len : Nat) : (s.retire len).turns = s.turns := rfl
@[simp] theorem State.retire_env (s : State) (len : Nat) : (s.retire len).env = s.env := rfl
@[simp] theorem State.retire_draws (s : State) (len : Nat) : (s.retire len).draws = s.draws := rfl
@[simp] theorem State.retire_pc (s : State) (len : Nat) : (s.retire len).pc = s.pcTop ++ (s.pcAddr + BitVec.ofNat 28 len) := State.advance_pc s len
@[simp] theorem State.retire_status (s : State) (len : Nat) : (s.retire len).status = s.status := State.advance_status s len
@[simp] theorem State.retire_stack (s : State) (len : Nat) : (s.retire len).stack = s.stack := State.advance_stack s len
theorem State.retire_other (s : State) (len : Nat) (k : TaskNo) (h : k ≠ s.cur) :
    (s.retire len).tasks[k] = s.tasks[k] := State.advance_other s len k h

/-! ### slide -/

@[simp] theorem State.slide_cfg (s : State) (sp : BitVec 14) (ba bb : BitVec 10) : (s.slide sp ba bb).cfg = s.cfg := rfl
@[simp] theorem State.slide_regMem (s : State) (sp : BitVec 14) (ba bb : BitVec 10) : (s.slide sp ba bb).regMem = s.regMem := rfl
@[simp] theorem State.slide_mem (s : State) (sp : BitVec 14) (ba bb : BitVec 10) : (s.slide sp ba bb).mem = s.mem := rfl
@[simp] theorem State.slide_imem (s : State) (sp : BitVec 14) (ba bb : BitVec 10) : (s.slide sp ba bb).imem = s.imem := rfl
@[simp] theorem State.slide_cascValid (s : State) (sp : BitVec 14) (ba bb : BitVec 10) : (s.slide sp ba bb).cascValid = s.cascValid := rfl
@[simp] theorem State.slide_cur (s : State) (sp : BitVec 14) (ba bb : BitVec 10) : (s.slide sp ba bb).cur = s.cur := rfl
@[simp] theorem State.slide_turns (s : State) (sp : BitVec 14) (ba bb : BitVec 10) : (s.slide sp ba bb).turns = s.turns := rfl
@[simp] theorem State.slide_env (s : State) (sp : BitVec 14) (ba bb : BitVec 10) : (s.slide sp ba bb).env = s.env := rfl
@[simp] theorem State.slide_draws (s : State) (sp : BitVec 14) (ba bb : BitVec 10) : (s.slide sp ba bb).draws = s.draws := rfl
@[simp] theorem State.slide_pc (s : State) (sp : BitVec 14) (ba bb : BitVec 10) : (s.slide sp ba bb).pc = s.pc := by
  simp [State.slide]
@[simp] theorem State.slide_status (s : State) (sp : BitVec 14) (ba bb : BitVec 10) : (s.slide sp ba bb).status = { s.status with bankA := ba, bankB := bb } := by
  simp [State.slide]
@[simp] theorem State.slide_stack (s : State) (sp : BitVec 14) (ba bb : BitVec 10) : (s.slide sp ba bb).stack = { s.stack with sp := sp } := by
  simp [State.slide]
theorem State.slide_other (s : State) (sp : BitVec 14) (ba bb : BitVec 10) (k : TaskNo) (h : k ≠ s.cur) :
    (s.slide sp ba bb).tasks[k] = s.tasks[k] := by
  rw [State.slide, State.setStatus_other _ _ k (by simpa using h), State.setStack_other s _ k h]

/-! ### writePhys -/

@[simp] theorem State.writePhys_cfg (s : State) (w : Nat) (v : Word) : (s.writePhys w v).cfg = s.cfg := rfl
@[simp] theorem State.writePhys_regMem (s : State) (w : Nat) (v : Word) : (s.writePhys w v).regMem = if v = 0 then cellErase s.regMem w else cellWrite s.regMem w v := rfl
@[simp] theorem State.writePhys_mem (s : State) (w : Nat) (v : Word) : (s.writePhys w v).mem = s.mem := rfl
@[simp] theorem State.writePhys_imem (s : State) (w : Nat) (v : Word) : (s.writePhys w v).imem = s.imem := rfl
@[simp] theorem State.writePhys_cascValid (s : State) (w : Nat) (v : Word) : (s.writePhys w v).cascValid = s.cascValid := rfl
@[simp] theorem State.writePhys_cur (s : State) (w : Nat) (v : Word) : (s.writePhys w v).cur = s.cur := rfl
@[simp] theorem State.writePhys_turns (s : State) (w : Nat) (v : Word) : (s.writePhys w v).turns = s.turns := rfl
@[simp] theorem State.writePhys_env (s : State) (w : Nat) (v : Word) : (s.writePhys w v).env = s.env := rfl
@[simp] theorem State.writePhys_draws (s : State) (w : Nat) (v : Word) : (s.writePhys w v).draws = s.draws := rfl
@[simp] theorem State.writePhys_pc (s : State) (w : Nat) (v : Word) : (s.writePhys w v).pc = s.pc := rfl
@[simp] theorem State.writePhys_status (s : State) (w : Nat) (v : Word) : (s.writePhys w v).status = s.status := rfl
@[simp] theorem State.writePhys_stack (s : State) (w : Nat) (v : Word) : (s.writePhys w v).stack = s.stack := rfl
@[simp] theorem State.writePhys_tasks (s : State) (w : Nat) (v : Word) : (s.writePhys w v).tasks = s.tasks := rfl

/-! ### writeReg -/

@[simp] theorem State.writeReg_cfg (s : State) (n : Reg) (v : Word) : (s.writeReg n v).cfg = s.cfg := rfl
@[simp] theorem State.writeReg_regMem (s : State) (n : Reg) (v : Word) : (s.writeReg n v).regMem = (s.writePhys (s.phys n) v).regMem := rfl
@[simp] theorem State.writeReg_mem (s : State) (n : Reg) (v : Word) : (s.writeReg n v).mem = s.mem := rfl
@[simp] theorem State.writeReg_imem (s : State) (n : Reg) (v : Word) : (s.writeReg n v).imem = s.imem := rfl
@[simp] theorem State.writeReg_cascValid (s : State) (n : Reg) (v : Word) : (s.writeReg n v).cascValid = s.cascValid := rfl
@[simp] theorem State.writeReg_cur (s : State) (n : Reg) (v : Word) : (s.writeReg n v).cur = s.cur := rfl
@[simp] theorem State.writeReg_turns (s : State) (n : Reg) (v : Word) : (s.writeReg n v).turns = s.turns := rfl
@[simp] theorem State.writeReg_env (s : State) (n : Reg) (v : Word) : (s.writeReg n v).env = s.env := rfl
@[simp] theorem State.writeReg_draws (s : State) (n : Reg) (v : Word) : (s.writeReg n v).draws = s.draws := rfl
@[simp] theorem State.writeReg_pc (s : State) (n : Reg) (v : Word) : (s.writeReg n v).pc = s.pc := rfl
@[simp] theorem State.writeReg_status (s : State) (n : Reg) (v : Word) : (s.writeReg n v).status = s.status := rfl
@[simp] theorem State.writeReg_stack (s : State) (n : Reg) (v : Word) : (s.writeReg n v).stack = s.stack := rfl
@[simp] theorem State.writeReg_tasks (s : State) (n : Reg) (v : Word) : (s.writeReg n v).tasks = s.tasks := rfl

/-! ### writeByte -/

@[simp] theorem State.writeByte_cfg (s : State) (k : Nat) (v : Byte) : (s.writeByte k v).cfg = s.cfg := rfl
@[simp] theorem State.writeByte_regMem (s : State) (k : Nat) (v : Byte) : (s.writeByte k v).regMem = s.regMem := rfl
@[simp] theorem State.writeByte_mem (s : State) (k : Nat) (v : Byte) : (s.writeByte k v).mem = cellWrite s.mem k v := rfl
@[simp] theorem State.writeByte_imem (s : State) (k : Nat) (v : Byte) : (s.writeByte k v).imem = s.imem := rfl
@[simp] theorem State.writeByte_cascValid (s : State) (k : Nat) (v : Byte) : (s.writeByte k v).cascValid = s.cascValid := rfl
@[simp] theorem State.writeByte_cur (s : State) (k : Nat) (v : Byte) : (s.writeByte k v).cur = s.cur := rfl
@[simp] theorem State.writeByte_turns (s : State) (k : Nat) (v : Byte) : (s.writeByte k v).turns = s.turns := rfl
@[simp] theorem State.writeByte_env (s : State) (k : Nat) (v : Byte) : (s.writeByte k v).env = s.env := rfl
@[simp] theorem State.writeByte_draws (s : State) (k : Nat) (v : Byte) : (s.writeByte k v).draws = s.draws := rfl
@[simp] theorem State.writeByte_pc (s : State) (k : Nat) (v : Byte) : (s.writeByte k v).pc = s.pc := rfl
@[simp] theorem State.writeByte_status (s : State) (k : Nat) (v : Byte) : (s.writeByte k v).status = s.status := rfl
@[simp] theorem State.writeByte_stack (s : State) (k : Nat) (v : Byte) : (s.writeByte k v).stack = s.stack := rfl
@[simp] theorem State.writeByte_tasks (s : State) (k : Nat) (v : Byte) : (s.writeByte k v).tasks = s.tasks := rfl

/-! ### memWrite4 -/

@[simp] theorem State.memWrite4_cfg (s : State) (a : DataAddr) (v : Word) : (s.memWrite4 a v).cfg = s.cfg := rfl
@[simp] theorem State.memWrite4_regMem (s : State) (a : DataAddr) (v : Word) : (s.memWrite4 a v).regMem = s.regMem := rfl
@[simp] theorem State.memWrite4_imem (s : State) (a : DataAddr) (v : Word) : (s.memWrite4 a v).imem = s.imem := rfl
@[simp] theorem State.memWrite4_cascValid (s : State) (a : DataAddr) (v : Word) : (s.memWrite4 a v).cascValid = s.cascValid := rfl
@[simp] theorem State.memWrite4_cur (s : State) (a : DataAddr) (v : Word) : (s.memWrite4 a v).cur = s.cur := rfl
@[simp] theorem State.memWrite4_turns (s : State) (a : DataAddr) (v : Word) : (s.memWrite4 a v).turns = s.turns := rfl
@[simp] theorem State.memWrite4_env (s : State) (a : DataAddr) (v : Word) : (s.memWrite4 a v).env = s.env := rfl
@[simp] theorem State.memWrite4_draws (s : State) (a : DataAddr) (v : Word) : (s.memWrite4 a v).draws = s.draws := rfl
@[simp] theorem State.memWrite4_pc (s : State) (a : DataAddr) (v : Word) : (s.memWrite4 a v).pc = s.pc := rfl
@[simp] theorem State.memWrite4_status (s : State) (a : DataAddr) (v : Word) : (s.memWrite4 a v).status = s.status := rfl
@[simp] theorem State.memWrite4_stack (s : State) (a : DataAddr) (v : Word) : (s.memWrite4 a v).stack = s.stack := rfl
@[simp] theorem State.memWrite4_tasks (s : State) (a : DataAddr) (v : Word) : (s.memWrite4 a v).tasks = s.tasks := rfl

/-! ### memWrite1 -/

@[simp] theorem State.memWrite1_cfg (s : State) (a : DataAddr) (v : Byte) : (s.memWrite1 a v).cfg = s.cfg := rfl
@[simp] theorem State.memWrite1_regMem (s : State) (a : DataAddr) (v : Byte) : (s.memWrite1 a v).regMem = s.regMem := rfl
@[simp] theorem State.memWrite1_mem (s : State) (a : DataAddr) (v : Byte) : (s.memWrite1 a v).mem = cellWrite s.mem a.key v := rfl
@[simp] theorem State.memWrite1_imem (s : State) (a : DataAddr) (v : Byte) : (s.memWrite1 a v).imem = s.imem := rfl
@[simp] theorem State.memWrite1_cascValid (s : State) (a : DataAddr) (v : Byte) : (s.memWrite1 a v).cascValid = s.cascValid := rfl
@[simp] theorem State.memWrite1_cur (s : State) (a : DataAddr) (v : Byte) : (s.memWrite1 a v).cur = s.cur := rfl
@[simp] theorem State.memWrite1_turns (s : State) (a : DataAddr) (v : Byte) : (s.memWrite1 a v).turns = s.turns := rfl
@[simp] theorem State.memWrite1_env (s : State) (a : DataAddr) (v : Byte) : (s.memWrite1 a v).env = s.env := rfl
@[simp] theorem State.memWrite1_draws (s : State) (a : DataAddr) (v : Byte) : (s.memWrite1 a v).draws = s.draws := rfl
@[simp] theorem State.memWrite1_pc (s : State) (a : DataAddr) (v : Byte) : (s.memWrite1 a v).pc = s.pc := rfl
@[simp] theorem State.memWrite1_status (s : State) (a : DataAddr) (v : Byte) : (s.memWrite1 a v).status = s.status := rfl
@[simp] theorem State.memWrite1_stack (s : State) (a : DataAddr) (v : Byte) : (s.memWrite1 a v).stack = s.stack := rfl
@[simp] theorem State.memWrite1_tasks (s : State) (a : DataAddr) (v : Byte) : (s.memWrite1 a v).tasks = s.tasks := rfl

/-! ### What depends on several fields -/

theorem State.pcTop_append_pcAddr (s : State) : s.pcTop ++ s.pcAddr = s.pc := by
  apply BitVec.eq_of_getLsbD_eq
  intro i hi
  simp only [State.pcTop, State.pcAddr, BitVec.getLsbD_append, BitVec.getLsbD_extractLsb']
  by_cases h : i < 28
  · simp [h]
  · simp [h, show 28 + (i - 28) = i by omega, show i - 28 < 4 by omega]

/-- The mapping of the registers depends on the banks and SP only (rule R14). -/
theorem State.phys_congr {s t : State} (ha : t.status.bankA = s.status.bankA) (hb : t.status.bankB = s.status.bankB)
    (hs : t.stack.sp = s.stack.sp) (n : Reg) : t.phys n = s.phys n := by
  simp [State.phys, ha, hb, hs]

theorem State.readReg_congr {s t : State} (hr : t.regMem = s.regMem) (ha : t.status.bankA = s.status.bankA)
    (hb : t.status.bankB = s.status.bankB) (hs : t.stack.sp = s.stack.sp) (n : Reg) : t.readReg n = s.readReg n := by
  simp [State.readReg, State.readPhys, hr, State.phys_congr ha hb hs]

end Sys2Proof.Machine
end

