-- ==== Sys2Proof/Laws/Cells.lean ====
section
/-! SUPPORT. The laws of the sparse memories: a read after a write, and that every operation keeps the canonical form. -/

namespace Sys2Proof.Machine

section generic
variable {α : Type}

@[simp] theorem cellRead_nil (k : Nat) : cellRead ([] : List (Nat × α)) k = none := rfl

theorem cellsRiseFrom_weaken (m : List (Nat × α)) {lo lo' : Nat} (h : lo' ≤ lo) (hm : cellsRiseFrom lo m = true) :
    cellsRiseFrom lo' m = true := by
  cases m with
  | nil => rfl
  | cons e rest =>
    obtain ⟨a, v⟩ := e
    simp only [cellsRiseFrom, Bool.and_eq_true, decide_eq_true_eq] at hm ⊢
    exact ⟨by omega, hm.2⟩

/-- A read after a write to the same key gives the value written. -/
@[simp] theorem cellRead_cellWrite_same (m : List (Nat × α)) (k : Nat) (x : α) :
    cellRead (cellWrite m k x) k = some x := by
  induction m with
  | nil => simp [cellWrite, cellRead]
  | cons e rest ih =>
    obtain ⟨a, v⟩ := e
    unfold cellWrite
    split
    · simp [cellRead]
    · split
      · simp [cellRead]
      · rw [cellRead, if_neg ‹_›, ih]

/-- A write leaves every other key alone. -/
theorem cellRead_cellWrite_other (m : List (Nat × α)) {k j : Nat} (x : α) (h : j ≠ k) :
    cellRead (cellWrite m k x) j = cellRead m j := by
  induction m with
  | nil => simp [cellWrite, cellRead, h]
  | cons e rest ih =>
    obtain ⟨a, v⟩ := e
    unfold cellWrite
    split
    · rw [cellRead, if_neg h]
    · split
      · subst k
        simp only [cellRead, if_neg h]
      · simp only [cellRead, ih]

theorem cellsRiseFrom_cellWrite (m : List (Nat × α)) {lo k : Nat} (x : α) (hm : cellsRiseFrom lo m = true)
    (h : lo ≤ k) : cellsRiseFrom lo (cellWrite m k x) = true := by
  induction m generalizing lo with
  | nil => simp [cellWrite, cellsRiseFrom, h]
  | cons e rest ih =>
    obtain ⟨a, v⟩ := e
    simp only [cellsRiseFrom, Bool.and_eq_true, decide_eq_true_eq] at hm
    unfold cellWrite
    split
    · simp only [cellsRiseFrom, Bool.and_eq_true, decide_eq_true_eq]
      exact ⟨h, by omega, hm.2⟩
    · split
      · subst k
        simpa [cellsRiseFrom, h] using hm.2
      · simp only [cellsRiseFrom, Bool.and_eq_true, decide_eq_true_eq]
        exact ⟨hm.1, ih hm.2 (by omega)⟩

/-- An erased key lists nothing. -/
@[simp] theorem cellRead_cellErase_same (m : List (Nat × α)) (k : Nat) : cellRead (cellErase m k) k = none := by
  induction m with
  | nil => rfl
  | cons e rest ih =>
    obtain ⟨a, v⟩ := e
    unfold cellErase
    split
    · exact ih
    · rw [cellRead, if_neg ‹_›, ih]

theorem cellRead_cellErase_other (m : List (Nat × α)) {k j : Nat} (h : j ≠ k) :
    cellRead (cellErase m k) j = cellRead m j := by
  induction m with
  | nil => rfl
  | cons e rest ih =>
    obtain ⟨a, v⟩ := e
    unfold cellErase
    split
    · subst k
      rw [ih, cellRead, if_neg h]
    · simp only [cellRead, ih]

theorem cellsRiseFrom_cellErase (m : List (Nat × α)) {lo : Nat} (k : Nat) (hm : cellsRiseFrom lo m = true) :
    cellsRiseFrom lo (cellErase m k) = true := by
  induction m generalizing lo with
  | nil => rfl
  | cons e rest ih =>
    obtain ⟨a, v⟩ := e
    simp only [cellsRiseFrom, Bool.and_eq_true, decide_eq_true_eq] at hm
    unfold cellErase
    split
    · exact cellsRiseFrom_weaken _ (by omega) (ih hm.2)
    · simpa [cellsRiseFrom, hm.1] using ih hm.2

theorem all_cellWrite (p : Nat × α → Bool) (m : List (Nat × α)) {k : Nat} {x : α} (hm : m.all p = true)
    (hx : p (k, x) = true) : (cellWrite m k x).all p = true := by
  induction m with
  | nil => simp [cellWrite, hx]
  | cons e rest ih =>
    obtain ⟨a, v⟩ := e
    simp only [List.all_cons, Bool.and_eq_true] at hm
    unfold cellWrite
    split
    · simp [hx, hm.1, hm.2]
    · split
      · simp [hx, hm.2]
      · simp [hm.1, ih hm.2]

theorem all_cellErase (p : Nat × α → Bool) (m : List (Nat × α)) (k : Nat) (hm : m.all p = true) :
    (cellErase m k).all p = true := by
  induction m with
  | nil => rfl
  | cons e rest ih =>
    obtain ⟨a, v⟩ := e
    simp only [List.all_cons, Bool.and_eq_true] at hm
    unfold cellErase
    split
    · exact ih hm.2
    · simp [hm.1, ih hm.2]

end generic

/-! ## Data memory -/

theorem Memory.wf_write (m : List Host.Cell) (k : Nat) (v : Byte) (h : Memory.wf m = true) :
    Memory.wf (cellWrite m k v) = true := cellsRiseFrom_cellWrite m v h (Nat.zero_le k)

theorem Memory.wf_writeByte (s : State) (k : Nat) (v : Byte) (h : Memory.wf s.mem = true) :
    Memory.wf (s.writeByte k v).mem = true := Memory.wf_write s.mem k v h

theorem Memory.wf_memWrite4 (s : State) (a : DataAddr) (v : Word) (h : Memory.wf s.mem = true) :
    Memory.wf (s.memWrite4 a v).mem = true := by
  unfold State.memWrite4
  exact wf_writeByte _ _ _ (wf_writeByte _ _ _ (wf_writeByte _ _ _ (wf_writeByte _ _ _ h)))

theorem Memory.wf_memWrite1 (s : State) (a : DataAddr) (v : Byte) (h : Memory.wf s.mem = true) :
    Memory.wf (s.memWrite1 a v).mem = true := Memory.wf_writeByte s a.key v h

theorem Memory.wf_reset : Memory.wf State.reset.mem = true := rfl

@[simp] theorem readByte_writeByte_same (s : State) (k : Nat) (v : Byte) :
    (s.writeByte k v).readByte k = some v := by simp [State.readByte, State.writeByte]

theorem readByte_writeByte_other (s : State) {k j : Nat} (v : Byte) (h : j ≠ k) :
    (s.writeByte k v).readByte j = s.readByte j := cellRead_cellWrite_other s.mem v h

/-- Outside its four bytes a word store changes nothing. -/
theorem readByte_memWrite4_other (s : State) (a : DataAddr) (v : Word) {j : Nat} (h : j < a.key ∨ a.key + 4 ≤ j) :
    (s.memWrite4 a v).readByte j = s.readByte j := by
  unfold State.memWrite4
  rw [readByte_writeByte_other _ _ (by omega), readByte_writeByte_other _ _ (by omega),
    readByte_writeByte_other _ _ (by omega), readByte_writeByte_other _ _ (by omega)]

/-- The four bytes of a word store. -/
theorem readByte_memWrite4_at (s : State) (a : DataAddr) (v : Word) {i : Nat} (h : i < 4) :
    (s.memWrite4 a v).readByte (a.key + i) = some (byteOfWord s.cfg.byteOrder v i) := by
  unfold State.memWrite4
  match i, h with
  | 0, _ =>
    rw [readByte_writeByte_other _ _ (by omega), readByte_writeByte_other _ _ (by omega),
      readByte_writeByte_other _ _ (by omega), Nat.add_zero, readByte_writeByte_same]
  | 1, _ =>
    rw [readByte_writeByte_other _ _ (by omega), readByte_writeByte_other _ _ (by omega), readByte_writeByte_same]
  | 2, _ =>
    rw [readByte_writeByte_other _ _ (by omega), readByte_writeByte_same]
  | 3, _ => rw [readByte_writeByte_same]

/-- In either byte order the bytes of a word make the word again. -/
theorem wordOfBytes_byteOfWord (o : ByteOrder) (v : Word) :
    wordOfBytes o (byteOfWord o v 0) (byteOfWord o v 1) (byteOfWord o v 2) (byteOfWord o v 3) = v := by
  apply BitVec.eq_of_getLsbD_eq
  intro i hi
  cases o <;>
  · simp only [wordOfBytes, byteOfWord, BitVec.getLsbD_append, BitVec.getLsbD_extractLsb']
    by_cases h1 : i < 8
    · simp [h1]
    · by_cases h2 : i < 16
      · simp [h1, show i - 8 < 8 by omega, show 8 + (i - 8) = i by omega]
      · by_cases h3 : i < 24
        · simp [h1, show i - 8 - 8 < 8 by omega, show ¬ i - 8 < 8 by omega, show 16 + (i - 8 - 8) = i by omega]
        · simp [h1, show ¬ i - 8 - 8 < 8 by omega, show ¬ i - 8 < 8 by omega,
            show i - 8 - 8 - 8 < 8 by omega, show 24 + (i - 8 - 8 - 8) = i by omega]

/-- A word store is read back whole. -/
theorem memRead4_memWrite4 (s : State) (a : DataAddr) (v : Word) : (s.memWrite4 a v).memRead4 a = some v := by
  have h0 := readByte_memWrite4_at s a v (i := 0) (by omega)
  have h1 := readByte_memWrite4_at s a v (i := 1) (by omega)
  have h2 := readByte_memWrite4_at s a v (i := 2) (by omega)
  have h3 := readByte_memWrite4_at s a v (i := 3) (by omega)
  rw [Nat.add_zero] at h0
  simp only [State.memRead4, h0, h1, h2, h3, State.memWrite4_cfg, wordOfBytes_byteOfWord]

/-! ## Register memory -/

theorem regMemWf_writePhys (s : State) (w : Nat) (v : Word) (h : regMemWf s.regMem = true) :
    regMemWf (s.writePhys w v).regMem = true := by
  simp only [regMemWf, Bool.and_eq_true] at h ⊢
  simp only [State.writePhys]
  split
  · exact ⟨cellsRiseFrom_cellErase _ w h.1, all_cellErase _ _ _ h.2⟩
  · exact ⟨cellsRiseFrom_cellWrite _ v h.1 (Nat.zero_le w), all_cellWrite _ _ h.2 (by simpa using ‹_›)⟩

/-- A register memory word just written reads as written. -/
@[simp] theorem readPhys_writePhys_same (s : State) (w : Nat) (v : Word) : (s.writePhys w v).readPhys w = v := by
  simp only [State.writePhys, State.readPhys]
  split
  · simpa using Eq.symm ‹_›
  · simp

/-- Every other register memory word keeps its value. -/
theorem readPhys_writePhys_other (s : State) {w j : Nat} (v : Word) (hj : j ≠ w) :
    (s.writePhys w v).readPhys j = s.readPhys j := by
  simp only [State.writePhys, State.readPhys]
  split
  · rw [cellRead_cellErase_other _ hj]
  · rw [cellRead_cellWrite_other _ _ hj]

end Sys2Proof.Machine
end

