-- ==== Sys2Proof/Laws/Decode.lean ====
section
/-! SUPPORT. The fields of a word and the word of four fields are inverse, and so are the condition field and its
decoding: what the two directions of encode and decode rest on. -/

namespace Sys2Proof

theorem toNat_wordOf (a b c d : BitVec 4) :
    (wordOf a b c d).toNat = a.toNat * 4096 + b.toNat * 256 + c.toNat * 16 + d.toNat := by
  have ha := a.isLt
  have hb := b.isLt
  have hc := c.isLt
  have hd := d.isLt
  rw [wordOf, BitVec.toNat_append, BitVec.toNat_append, BitVec.toNat_append,
    ← Nat.shiftLeft_add_eq_or_of_lt hd, ← Nat.shiftLeft_add_eq_or_of_lt hc, ← Nat.shiftLeft_add_eq_or_of_lt hb]
  simp only [Nat.shiftLeft_eq]
  omega

theorem toNat_nibble (w : Word16) (n : Nat) : (nibble w n).toNat = w.toNat / 2 ^ (4 * n) % 16 := by
  simp [nibble, BitVec.extractLsb'_toNat, Nat.shiftRight_eq_div_pow]

@[simp] theorem nibble_wordOf_3 (a b c d : BitVec 4) : nibble (wordOf a b c d) 3 = a := by
  apply BitVec.eq_of_toNat_eq
  rw [toNat_nibble, toNat_wordOf]
  have ha := a.isLt
  have hb := b.isLt
  have hc := c.isLt
  have hd := d.isLt
  omega

@[simp] theorem nibble_wordOf_2 (a b c d : BitVec 4) : nibble (wordOf a b c d) 2 = b := by
  apply BitVec.eq_of_toNat_eq
  rw [toNat_nibble, toNat_wordOf]
  have ha := a.isLt
  have hb := b.isLt
  have hc := c.isLt
  have hd := d.isLt
  omega

@[simp] theorem nibble_wordOf_1 (a b c d : BitVec 4) : nibble (wordOf a b c d) 1 = c := by
  apply BitVec.eq_of_toNat_eq
  rw [toNat_nibble, toNat_wordOf]
  have ha := a.isLt
  have hb := b.isLt
  have hc := c.isLt
  have hd := d.isLt
  omega

@[simp] theorem nibble_wordOf_0 (a b c d : BitVec 4) : nibble (wordOf a b c d) 0 = d := by
  apply BitVec.eq_of_toNat_eq
  rw [toNat_nibble, toNat_wordOf]
  have ha := a.isLt
  have hb := b.isLt
  have hc := c.isLt
  have hd := d.isLt
  omega

/-- Every word is the word of its four fields. -/
theorem wordOf_nibbles (w : Word16) : wordOf (nibble w 3) (nibble w 2) (nibble w 1) (nibble w 0) = w := by
  apply BitVec.eq_of_toNat_eq
  have hw := w.isLt
  simp only [toNat_wordOf, toNat_nibble]
  omega

/-- The bits of the group field are bits 15 to 12 of the word. -/
theorem getLsbD_group (w : Word16) {i : Nat} (h : i < 4) : w.getLsbD (12 + i) = (nibble w 3).getLsbD i := by
  simp [nibble, h]

theorem getLsbD_wordOf_15 (a b c d : BitVec 4) : (wordOf a b c d).getLsbD 15 = a.getLsbD 3 := by
  rw [getLsbD_group _ (i := 3) (by omega), nibble_wordOf_3]
theorem getLsbD_wordOf_14 (a b c d : BitVec 4) : (wordOf a b c d).getLsbD 14 = a.getLsbD 2 := by
  rw [getLsbD_group _ (i := 2) (by omega), nibble_wordOf_3]
theorem getLsbD_wordOf_13 (a b c d : BitVec 4) : (wordOf a b c d).getLsbD 13 = a.getLsbD 1 := by
  rw [getLsbD_group _ (i := 1) (by omega), nibble_wordOf_3]
theorem getLsbD_wordOf_12 (a b c d : BitVec 4) : (wordOf a b c d).getLsbD 12 = a.getLsbD 0 := by
  rw [getLsbD_group _ (i := 0) (by omega), nibble_wordOf_3]

@[simp] theorem getElem_wordOf_15 (a b c d : BitVec 4) : (wordOf a b c d)[15] = a[3] :=
  getLsbD_wordOf_15 a b c d
@[simp] theorem getElem_wordOf_14 (a b c d : BitVec 4) : (wordOf a b c d)[14] = a[2] :=
  getLsbD_wordOf_14 a b c d
@[simp] theorem getElem_wordOf_13 (a b c d : BitVec 4) : (wordOf a b c d)[13] = a[1] :=
  getLsbD_wordOf_13 a b c d
@[simp] theorem getElem_wordOf_12 (a b c d : BitVec 4) : (wordOf a b c d)[12] = a[0] :=
  getLsbD_wordOf_12 a b c d

@[simp] theorem condOf_condField (c : Cond) : condOf (condField c) = c := by
  obtain ⟨t, p⟩ := c
  cases t <;> cases p <;> rfl

theorem condField_condOf : ∀ f : BitVec 4, condField (condOf f) = f := by decide

/-- An eight bit field is its two halves. -/
@[simp] theorem append_halves (m : BitVec 8) : m.extractLsb' 4 4 ++ m.extractLsb' 0 4 = m := by
  revert m
  decide

/-- The length of an instruction whose `#` bit is clear or that has none (rule R77). -/
theorem lengthOf_wordOf_plain (a b c d : BitVec 4) (h : a = 0 ∨ a = 1 ∨ a.getLsbD 0 = false) :
    lengthOf (wordOf a b c d) = 2 := by
  rcases h with rfl | rfl | h
  · simp [lengthOf]
  · simp [lengthOf]
  · have h' : a[0] = false := h
    simp [lengthOf, h']

/-- The length of an instruction whose `#` bit is set (rule R77). -/
theorem lengthOf_wordOf_imm (a b c d : BitVec 4) (h0 : a ≠ 0) (h1 : a ≠ 1) (h : a.getLsbD 0 = true) :
    lengthOf (wordOf a b c d) = if d = 14 then 4 else if d = 15 then 6 else 2 := by
  have h' : a[0] = true := h
  have h0' : ¬ a = 0#4 := h0
  have h1' : ¬ a = 1#4 := h1
  simp [lengthOf, h0', h1', h']

/-- A four bit field has sixteen values. -/
theorem forall_nibble {p : BitVec 4 → Prop}
    (h : p 0 ∧ p 1 ∧ p 2 ∧ p 3 ∧ p 4 ∧ p 5 ∧ p 6 ∧ p 7 ∧ p 8 ∧ p 9 ∧ p 10 ∧ p 11 ∧ p 12 ∧ p 13 ∧ p 14 ∧ p 15)
    (f : BitVec 4) : p f := by
  obtain ⟨h0, h1, h2, h3, h4, h5, h6, h7, h8, h9, h10, h11, h12, h13, h14, h15⟩ := h
  have : f = 0 ∨ f = 1 ∨ f = 2 ∨ f = 3 ∨ f = 4 ∨ f = 5 ∨ f = 6 ∨ f = 7 ∨ f = 8 ∨ f = 9 ∨ f = 10 ∨ f = 11 ∨ f = 12 ∨
      f = 13 ∨ f = 14 ∨ f = 15 := by
    revert f
    decide
  rcases this with rfl | rfl | rfl | rfl | rfl | rfl | rfl | rfl | rfl | rfl | rfl | rfl | rfl | rfl | rfl | rfl <;>
    assumption

/-! ## The tables of the decoder against those of the encoder -/

theorem encode_mathReg (f : BitVec 4) (d r : Reg) : encode (mathReg f d r) = [wordOf 2 f d r] := by
  revert f
  apply forall_nibble
  and_intros <;> rfl

theorem encode_mathImm (f : BitVec 4) (d : Reg) (m : Imm) : encode (mathImm f d m) = immWords 3 f d m := by
  revert f
  apply forall_nibble
  and_intros <;> rfl

theorem wellFormed_mathReg (f : BitVec 4) (d r : Reg) : (mathReg f d r).wellFormed = true := by
  revert f
  apply forall_nibble
  and_intros <;> rfl

theorem wellFormed_mathImm (f : BitVec 4) (d : Reg) (m : Imm) : (mathImm f d m).wellFormed = m.wellFormed := by
  revert f
  apply forall_nibble
  and_intros <;> rfl

theorem encode_shiftReg (f : BitVec 4) (d r : Reg) : encode (shiftReg f d r) = [wordOf 4 f d r] := by
  revert f
  apply forall_nibble
  and_intros <;> rfl

theorem encode_shiftImm (f : BitVec 4) (d : Reg) (m : Imm) : encode (shiftImm f d m) = immWords 5 f d m := by
  revert f
  apply forall_nibble
  and_intros <;> rfl

theorem wellFormed_shiftReg (f : BitVec 4) (d r : Reg) : (shiftReg f d r).wellFormed = true := by
  revert f
  apply forall_nibble
  and_intros <;> rfl

theorem wellFormed_shiftImm (f : BitVec 4) (d : Reg) (m : Imm) : (shiftImm f d m).wellFormed = m.wellFormed := by
  revert f
  apply forall_nibble
  and_intros <;> rfl

theorem encode_logicReg (f : BitVec 4) (d r : Reg) : encode (logicReg f d r) = [wordOf 6 f d r] := by
  revert f
  apply forall_nibble
  and_intros <;> rfl

theorem encode_logicImm (f : BitVec 4) (d : Reg) (m : Imm) : encode (logicImm f d m) = immWords 7 f d m := by
  revert f
  apply forall_nibble
  and_intros <;> rfl

theorem wellFormed_logicReg (f : BitVec 4) (d r : Reg) : (logicReg f d r).wellFormed = true := by
  revert f
  apply forall_nibble
  and_intros <;> rfl

theorem wellFormed_logicImm (f : BitVec 4) (d : Reg) (m : Imm) : (logicImm f d m).wellFormed = m.wellFormed := by
  revert f
  apply forall_nibble
  and_intros <;> rfl

/-! ## Later words -/

theorem withImm_append {f : BitVec 4} {ws ys rest : List Word16} {k : Imm → Instr} {i : Instr}
    (h : withImm f ws k = .ok (i, rest)) : withImm f (ws ++ ys) k = .ok (i, rest ++ ys) := by
  unfold withImm at h ⊢
  split
  · rw [if_pos ‹_›] at h
    match ws, h with
    | [], h => cases h
    | _ :: _, h => cases h; rfl
  · rw [if_neg ‹_›] at h
    split
    · rw [if_pos ‹_›] at h
      match ws, h with
      | [], h => cases h
      | [_], h => cases h
      | _ :: _ :: _, h => cases h; rfl
    · rw [if_neg ‹_›] at h
      cases h
      rfl

/-- Decoding reads no word after the instruction's own. -/
theorem decode_append {ws ys rest : List Word16} {i : Instr} (h : decode ws = .ok (i, rest)) :
    decode (ws ++ ys) = .ok (i, rest ++ ys) := by
  cases ws with
  | nil => cases h
  | cons w ws =>
    simp only [List.cons_append, decode] at h ⊢
    split <;> simp only [*] at h <;> first | exact withImm_append h | (cases h; rfl) | skip
    simp only [extended] at h ⊢
    split <;> simp only [*] at h <;> first | (cases h; rfl) | skip
    · cases ws with
      | nil => cases h
      | cons e ws => cases h; rfl
    · match ws, h with
      | [], h => cases h
      | [_], h => cases h
      | _ :: _ :: _, h => cases h; rfl

end Sys2Proof
end

