-- ==== Sys2Proof/Laws/Regs.lean ====
section
/-! SUPPORT. The laws of the visible registers (10_state.md rules R11 to R14), and what the common end of the MATH,
SHIFT and LOGIC groups does. -/

namespace Sys2Proof.Machine

/-- The mapping reaches only the 1024 blocks of 16 words (rule R13). -/
theorem physOf_lt (ba bb : BitVec 10) (sp : BitVec 14) (n : Reg) : physOf ba bb sp n < 16384 := by
  have hs := (sp.extractLsb' 0 4).isLt
  have hn := n.isLt
  have ha := ba.isLt
  have hb := bb.isLt
  unfold physOf
  by_cases h : slotOf sp n < 16
  · rw [if_pos h]
    omega
  · rw [if_neg h]
    simp only [slotOf]
    omega

/-- One task's sixteen names are sixteen words, whatever its banks (rule R14). -/
theorem physOf_injective (ba bb : BitVec 10) (sp : BitVec 14) {n m : Reg}
    (h : physOf ba bb sp n = physOf ba bb sp m) : n = m := by
  apply BitVec.eq_of_toNat_eq
  have hs := (sp.extractLsb' 0 4).isLt
  have hn := n.isLt
  have hm := m.isLt
  unfold physOf at h
  by_cases h1 : slotOf sp n < 16 <;> by_cases h2 : slotOf sp m < 16
  · rw [if_pos h1, if_pos h2] at h
    simp only [slotOf] at h
    omega
  · rw [if_pos h1, if_neg h2] at h
    simp only [slotOf] at h h1 h2
    omega
  · rw [if_neg h1, if_pos h2] at h
    simp only [slotOf] at h h1 h2
    omega
  · rw [if_neg h1, if_neg h2] at h
    simp only [slotOf] at h h1 h2
    omega

theorem State.phys_ne (s : State) {n m : Reg} (h : n ≠ m) : s.phys n ≠ s.phys m :=
  fun e => h (physOf_injective _ _ _ e)

@[simp] theorem State.readReg_fifteen (s : State) : s.readReg 15 = 0 := rfl

@[simp] theorem State.phys_writePhys (s : State) (w : Nat) (v : Word) (n : Reg) : (s.writePhys w v).phys n = s.phys n :=
  rfl

@[simp] theorem State.phys_writeReg (s : State) (m : Reg) (v : Word) (n : Reg) : (s.writeReg m v).phys n = s.phys n :=
  rfl

/-- A register other than R15 reads as written. -/
theorem State.readReg_writeReg_same (s : State) {n : Reg} (v : Word) (h : n ≠ 15) :
    (s.writeReg n v).readReg n = v := by
  rw [State.readReg, if_neg h]
  exact readPhys_writePhys_same s _ v

/-- A register write leaves every other visible register alone. -/
theorem State.readReg_writeReg_other (s : State) {n m : Reg} (v : Word) (h : m ≠ n) :
    (s.writeReg n v).readReg m = s.readReg m := by
  simp only [State.readReg]
  split
  · rfl
  · exact readPhys_writePhys_other s v (s.phys_ne h)

/-- A write to R15 changes no visible register (rule R12). -/
theorem State.readReg_writeReg_fifteen (s : State) (v : Word) (m : Reg) :
    (s.writeReg 15 v).readReg m = s.readReg m := by
  by_cases h : m = 15
  · subst h
    rfl
  · exact s.readReg_writeReg_other v h

/-- The word R15 maps to holds what was written, for the cascade to read (rule R137). -/
@[simp] theorem State.cascValue_writeReg (s : State) (v : Word) : (s.writeReg 15 v).cascValue = v :=
  readPhys_writePhys_same s _ v

/-! ## The common end of MATH, SHIFT and LOGIC -/

section aluRetire
variable (s : State) (k : Bool) (d : Reg) (out : AluOut) (len : Nat)

/-- What a MATH, SHIFT or LOGIC instruction writes as its register: dest, or the word of R15 when it cascades. -/
def aluTarget (k : Bool) (d : Reg) : Reg := if k then 15 else d

@[simp] theorem State.aluRetire_cfg : (s.aluRetire k d out len).cfg = s.cfg := rfl
@[simp] theorem State.aluRetire_mem : (s.aluRetire k d out len).mem = s.mem := rfl
@[simp] theorem State.aluRetire_imem : (s.aluRetire k d out len).imem = s.imem := rfl
@[simp] theorem State.aluRetire_cascValid : (s.aluRetire k d out len).cascValid = k := rfl
@[simp] theorem State.aluRetire_cur : (s.aluRetire k d out len).cur = s.cur := rfl
@[simp] theorem State.aluRetire_turns : (s.aluRetire k d out len).turns = s.turns := rfl
@[simp] theorem State.aluRetire_env : (s.aluRetire k d out len).env = s.env := rfl
@[simp] theorem State.aluRetire_draws : (s.aluRetire k d out len).draws = s.draws := rfl
@[simp] theorem State.aluRetire_stack : (s.aluRetire k d out len).stack = s.stack := by
  simp [State.aluRetire]
@[simp] theorem State.aluRetire_status : (s.aluRetire k d out len).status =
    { s.status with n := out.r.msb, z := out.r == 0, c := out.c, v := out.v } := by
  simp [State.aluRetire]
@[simp] theorem State.aluRetire_pc :
    (s.aluRetire k d out len).pc = s.pcTop ++ (s.pcAddr + BitVec.ofNat 28 len) := by
  simp [State.aluRetire, State.pcTop, State.pcAddr]

theorem State.aluRetire_other (t : TaskNo) (h : t ≠ s.cur) : (s.aluRetire k d out len).tasks[t] = s.tasks[t] := by
  rw [State.aluRetire, State.setCasc_tasks, State.advance_other _ _ t (by simpa using h), State.writeReg_tasks,
    State.setFlags_other _ _ _ _ _ t h]

theorem State.aluRetire_regMem :
    (s.aluRetire k d out len).regMem = (s.writeReg (aluTarget k d) out.r).regMem := by
  have h : (s.setFlags out.r.msb (out.r == 0) out.c out.v).phys (aluTarget k d) = s.phys (aluTarget k d) :=
    State.phys_congr (by simp) (by simp) (by simp) _
  show ((s.setFlags out.r.msb (out.r == 0) out.c out.v).writeReg (aluTarget k d) out.r).regMem = _
  simp only [State.writeReg_regMem, State.writePhys_regMem, State.setFlags_regMem, h]

theorem State.aluRetire_phys (n : Reg) : (s.aluRetire k d out len).phys n = s.phys n :=
  State.phys_congr (by simp) (by simp) (by simp) n

theorem State.aluRetire_readReg (n : Reg) :
    (s.aluRetire k d out len).readReg n = (s.writeReg (aluTarget k d) out.r).readReg n :=
  State.readReg_congr (s := s.writeReg (aluTarget k d) out.r) (s.aluRetire_regMem k d out len) (by simp) (by simp)
    (by simp) n

theorem State.aluRetire_readPhys (w : Nat) :
    (s.aluRetire k d out len).readPhys w = (s.writeReg (aluTarget k d) out.r).readPhys w := by
  simp only [State.readPhys, s.aluRetire_regMem k d out len]

end aluRetire

end Sys2Proof.Machine
end

