-- ==== Sys2Proof/Laws/Shape.lean ====
section
/-! SUPPORT. Which shared operation each instruction runs, and whether its first word is of format A and with which K:
the case analysis over the 121 instructions, made once. -/

namespace Sys2Proof.Machine

/-! ## The first word -/

/-- The first word is of the MATH, SHIFT or LOGIC groups, and its bit 11 is K (30_encoding.md rules R71, R73). -/
def AluHead (i : Instr) (k : Bool) : Prop :=
  ∃ g f n1 n0 rest, encode i = wordOf g f n1 n0 :: rest ∧ (g.toNat / 2 = 1 ∨ g.toNat / 2 = 2 ∨ g.toNat / 2 = 3) ∧
    f.getLsbD 3 = k

/-- The first word is of another group. -/
def OtherHead (i : Instr) : Prop :=
  ∃ g f n1 n0 rest, encode i = wordOf g f n1 n0 :: rest ∧ (g.toNat / 2 = 0 ∨ 4 ≤ g.toNat / 2)

theorem immWords_head (n3 n2 n1 : BitVec 4) (m : Imm) :
    ∃ n0 rest, immWords n3 n2 n1 m = wordOf n3 n2 n1 n0 :: rest := by
  cases m <;> exact ⟨_, _, rfl⟩

theorem AluHead.reg {i : Instr} {k : Bool} (g f d r : BitVec 4) (h : encode i = [wordOf g f d r])
    (hg : g.toNat / 2 = 1 ∨ g.toNat / 2 = 2 ∨ g.toNat / 2 = 3) (hk : f.getLsbD 3 = k) : AluHead i k :=
  ⟨g, f, d, r, [], h, hg, hk⟩

theorem AluHead.imm {i : Instr} {k : Bool} (g f d : BitVec 4) (m : Imm) (h : encode i = immWords g f d m)
    (hg : g.toNat / 2 = 1 ∨ g.toNat / 2 = 2 ∨ g.toNat / 2 = 3) (hk : f.getLsbD 3 = k) : AluHead i k := by
  obtain ⟨n0, rest, e⟩ := immWords_head g f d m
  exact ⟨g, f, d, n0, rest, h.trans e, hg, hk⟩

theorem OtherHead.words {i : Instr} (g f n1 n0 : BitVec 4) (rest : List Word16)
    (h : encode i = wordOf g f n1 n0 :: rest) (hg : g.toNat / 2 = 0 ∨ 4 ≤ g.toNat / 2) : OtherHead i :=
  ⟨g, f, n1, n0, rest, h, hg⟩

theorem OtherHead.imm {i : Instr} (g b r : BitVec 4) (m : Imm) (h : encode i = immWords g b r m)
    (hg : g.toNat / 2 = 0 ∨ 4 ≤ g.toNat / 2) : OtherHead i := by
  obtain ⟨n0, rest, e⟩ := immWords_head g b r m
  exact ⟨g, b, r, n0, rest, h.trans e, hg⟩

/-! ## The shared operation -/

/-- The shared operation an instruction's meaning is, with what its first word is. -/
inductive ExecShape (s : State) : Instr → Prop
  | math (i : Instr) (op : MathOp) (k : Bool) (d : Reg) (src : Src) (h : exec i s = mathInstr op k d src s)
      (w : AluHead i k) : ExecShape s i
  | shift (i : Instr) (op : ShiftOp) (k : Bool) (d : Reg) (src : Src) (h : exec i s = shiftInstr op k d src s)
      (w : AluHead i k) : ExecShape s i
  | logic (i : Instr) (op : LogicOp) (k : Bool) (d : Reg) (src : Src) (h : exec i s = logicInstr op k d src s)
      (w : AluHead i k) : ExecShape s i
  | load (i : Instr) (b r : Reg) (src : Src) (h : exec i s = load b r src s) (w : OtherHead i) : ExecShape s i
  | store (i : Instr) (b r : Reg) (src : Src) (h : exec i s = store b r src s) (w : OtherHead i)
      (form : (∃ o, i = .st b r o) ∨ ∃ m, i = .stI b r m) : ExecShape s i
  | storeByte (i : Instr) (b r : Reg) (src : Src) (h : exec i s = storeByte b r src s) (w : OtherHead i)
      (form : (∃ o, i = .stb b r o) ∨ ∃ m, i = .stbI b r m) : ExecShape s i
  | jump (i : Instr) (b l : Reg) (src : Src) (h : exec i s = jumpAndLink b l src s) (w : OtherHead i) : ExecShape s i
  | coproc (i : Instr) (code : CoprocCode) (len : Nat) (b d : Reg) (h : exec i s = coprocCall code len b d s)
      (w : OtherHead i) : ExecShape s i
  | skip (c : Cond) (m : BitVec 8) (w : OtherHead (.skip c m)) : ExecShape s (.skip c m)
  | branch (c : Cond) (off : BitVec 8) (w : OtherHead (.branch c off)) : ExecShape s (.branch c off)
  | stk (src d : Reg) (w : OtherHead (.stk src d)) : ExecShape s (.stk src d)
  | refused (i : Instr) (r : Refusal) (h : exec i s = .refused r) (w : OtherHead i) : ExecShape s i

theorem exec_shape (i : Instr) (s : State) : ExecShape s i :=
  match i with
  | .skip c m => .skip c m (.words 0 _ _ _ _ rfl (by decide))
  | .branch c off => .branch c off (.words 1 _ _ _ _ rfl (by decide))
  | .mov d r => .math _ .mov false d (.reg r) rfl (.reg 2 0 d r rfl (by decide) rfl)
  | .movI d m => .math _ .mov false d (.imm m) rfl (.imm 3 0 d m rfl (by decide) rfl)
  | .kmov d r => .math _ .mov true d (.reg r) rfl (.reg 2 8 d r rfl (by decide) rfl)
  | .kmovI d m => .math _ .mov true d (.imm m) rfl (.imm 3 8 d m rfl (by decide) rfl)
  | .inc d r => .math _ .inc false d (.reg r) rfl (.reg 2 1 d r rfl (by decide) rfl)
  | .incI d m => .math _ .inc false d (.imm m) rfl (.imm 3 1 d m rfl (by decide) rfl)
  | .kinc d r => .math _ .inc true d (.reg r) rfl (.reg 2 9 d r rfl (by decide) rfl)
  | .kincI d m => .math _ .inc true d (.imm m) rfl (.imm 3 9 d m rfl (by decide) rfl)
  | .not d r => .math _ .not false d (.reg r) rfl (.reg 2 2 d r rfl (by decide) rfl)
  | .notI d m => .math _ .not false d (.imm m) rfl (.imm 3 2 d m rfl (by decide) rfl)
  | .knot d r => .math _ .not true d (.reg r) rfl (.reg 2 10 d r rfl (by decide) rfl)
  | .knotI d m => .math _ .not true d (.imm m) rfl (.imm 3 10 d m rfl (by decide) rfl)
  | .neg d r => .math _ .neg false d (.reg r) rfl (.reg 2 3 d r rfl (by decide) rfl)
  | .negI d m => .math _ .neg false d (.imm m) rfl (.imm 3 3 d m rfl (by decide) rfl)
  | .kneg d r => .math _ .neg true d (.reg r) rfl (.reg 2 11 d r rfl (by decide) rfl)
  | .knegI d m => .math _ .neg true d (.imm m) rfl (.imm 3 11 d m rfl (by decide) rfl)
  | .add d r => .math _ .add false d (.reg r) rfl (.reg 2 4 d r rfl (by decide) rfl)
  | .addI d m => .math _ .add false d (.imm m) rfl (.imm 3 4 d m rfl (by decide) rfl)
  | .kadd d r => .math _ .add true d (.reg r) rfl (.reg 2 12 d r rfl (by decide) rfl)
  | .kaddI d m => .math _ .add true d (.imm m) rfl (.imm 3 12 d m rfl (by decide) rfl)
  | .adc d r => .math _ .adc false d (.reg r) rfl (.reg 2 5 d r rfl (by decide) rfl)
  | .adcI d m => .math _ .adc false d (.imm m) rfl (.imm 3 5 d m rfl (by decide) rfl)
  | .kadc d r => .math _ .adc true d (.reg r) rfl (.reg 2 13 d r rfl (by decide) rfl)
  | .kadcI d m => .math _ .adc true d (.imm m) rfl (.imm 3 13 d m rfl (by decide) rfl)
  | .sbb d r => .math _ .sbb false d (.reg r) rfl (.reg 2 6 d r rfl (by decide) rfl)
  | .sbbI d m => .math _ .sbb false d (.imm m) rfl (.imm 3 6 d m rfl (by decide) rfl)
  | .ksbb d r => .math _ .sbb true d (.reg r) rfl (.reg 2 14 d r rfl (by decide) rfl)
  | .ksbbI d m => .math _ .sbb true d (.imm m) rfl (.imm 3 14 d m rfl (by decide) rfl)
  | .sub d r => .math _ .sub false d (.reg r) rfl (.reg 2 7 d r rfl (by decide) rfl)
  | .subI d m => .math _ .sub false d (.imm m) rfl (.imm 3 7 d m rfl (by decide) rfl)
  | .ksub d r => .math _ .sub true d (.reg r) rfl (.reg 2 15 d r rfl (by decide) rfl)
  | .ksubI d m => .math _ .sub true d (.imm m) rfl (.imm 3 15 d m rfl (by decide) rfl)
  | .shr d r => .shift _ .shr false d (.reg r) rfl (.reg 4 0 d r rfl (by decide) rfl)
  | .shrI d m => .shift _ .shr false d (.imm m) rfl (.imm 5 0 d m rfl (by decide) rfl)
  | .kshr d r => .shift _ .shr true d (.reg r) rfl (.reg 4 8 d r rfl (by decide) rfl)
  | .kshrI d m => .shift _ .shr true d (.imm m) rfl (.imm 5 8 d m rfl (by decide) rfl)
  | .shl d r => .shift _ .shl false d (.reg r) rfl (.reg 4 1 d r rfl (by decide) rfl)
  | .shlI d m => .shift _ .shl false d (.imm m) rfl (.imm 5 1 d m rfl (by decide) rfl)
  | .kshl d r => .shift _ .shl true d (.reg r) rfl (.reg 4 9 d r rfl (by decide) rfl)
  | .kshlI d m => .shift _ .shl true d (.imm m) rfl (.imm 5 9 d m rfl (by decide) rfl)
  | .asr d r => .shift _ .asr false d (.reg r) rfl (.reg 4 2 d r rfl (by decide) rfl)
  | .asrI d m => .shift _ .asr false d (.imm m) rfl (.imm 5 2 d m rfl (by decide) rfl)
  | .kasr d r => .shift _ .asr true d (.reg r) rfl (.reg 4 10 d r rfl (by decide) rfl)
  | .kasrI d m => .shift _ .asr true d (.imm m) rfl (.imm 5 10 d m rfl (by decide) rfl)
  | .rot d r => .shift _ .rot false d (.reg r) rfl (.reg 4 3 d r rfl (by decide) rfl)
  | .rotI d m => .shift _ .rot false d (.imm m) rfl (.imm 5 3 d m rfl (by decide) rfl)
  | .krot d r => .shift _ .rot true d (.reg r) rfl (.reg 4 11 d r rfl (by decide) rfl)
  | .krotI d m => .shift _ .rot true d (.imm m) rfl (.imm 5 11 d m rfl (by decide) rfl)
  | .div d r => .shift _ .div false d (.reg r) rfl (.reg 4 4 d r rfl (by decide) rfl)
  | .divI d m => .shift _ .div false d (.imm m) rfl (.imm 5 4 d m rfl (by decide) rfl)
  | .kdiv d r => .shift _ .div true d (.reg r) rfl (.reg 4 12 d r rfl (by decide) rfl)
  | .kdivI d m => .shift _ .div true d (.imm m) rfl (.imm 5 12 d m rfl (by decide) rfl)
  | .mul d r => .shift _ .mul false d (.reg r) rfl (.reg 4 5 d r rfl (by decide) rfl)
  | .mulI d m => .shift _ .mul false d (.imm m) rfl (.imm 5 5 d m rfl (by decide) rfl)
  | .kmul d r => .shift _ .mul true d (.reg r) rfl (.reg 4 13 d r rfl (by decide) rfl)
  | .kmulI d m => .shift _ .mul true d (.imm m) rfl (.imm 5 13 d m rfl (by decide) rfl)
  | .dvs d r => .shift _ .dvs false d (.reg r) rfl (.reg 4 6 d r rfl (by decide) rfl)
  | .dvsI d m => .shift _ .dvs false d (.imm m) rfl (.imm 5 6 d m rfl (by decide) rfl)
  | .kdvs d r => .shift _ .dvs true d (.reg r) rfl (.reg 4 14 d r rfl (by decide) rfl)
  | .kdvsI d m => .shift _ .dvs true d (.imm m) rfl (.imm 5 14 d m rfl (by decide) rfl)
  | .mls d r => .shift _ .mls false d (.reg r) rfl (.reg 4 7 d r rfl (by decide) rfl)
  | .mlsI d m => .shift _ .mls false d (.imm m) rfl (.imm 5 7 d m rfl (by decide) rfl)
  | .kmls d r => .shift _ .mls true d (.reg r) rfl (.reg 4 15 d r rfl (by decide) rfl)
  | .kmlsI d m => .shift _ .mls true d (.imm m) rfl (.imm 5 15 d m rfl (by decide) rfl)
  | .ior d r => .logic _ .ior false d (.reg r) rfl (.reg 6 0 d r rfl (by decide) rfl)
  | .iorI d m => .logic _ .ior false d (.imm m) rfl (.imm 7 0 d m rfl (by decide) rfl)
  | .kior d r => .logic _ .ior true d (.reg r) rfl (.reg 6 8 d r rfl (by decide) rfl)
  | .kiorI d m => .logic _ .ior true d (.imm m) rfl (.imm 7 8 d m rfl (by decide) rfl)
  | .xor d r => .logic _ .xor false d (.reg r) rfl (.reg 6 1 d r rfl (by decide) rfl)
  | .xorI d m => .logic _ .xor false d (.imm m) rfl (.imm 7 1 d m rfl (by decide) rfl)
  | .kxor d r => .logic _ .xor true d (.reg r) rfl (.reg 6 9 d r rfl (by decide) rfl)
  | .kxorI d m => .logic _ .xor true d (.imm m) rfl (.imm 7 9 d m rfl (by decide) rfl)
  | .nor d r => .logic _ .nor false d (.reg r) rfl (.reg 6 2 d r rfl (by decide) rfl)
  | .norI d m => .logic _ .nor false d (.imm m) rfl (.imm 7 2 d m rfl (by decide) rfl)
  | .knor d r => .logic _ .nor true d (.reg r) rfl (.reg 6 10 d r rfl (by decide) rfl)
  | .knorI d m => .logic _ .nor true d (.imm m) rfl (.imm 7 10 d m rfl (by decide) rfl)
  | .eqv d r => .logic _ .eqv false d (.reg r) rfl (.reg 6 3 d r rfl (by decide) rfl)
  | .eqvI d m => .logic _ .eqv false d (.imm m) rfl (.imm 7 3 d m rfl (by decide) rfl)
  | .keqv d r => .logic _ .eqv true d (.reg r) rfl (.reg 6 11 d r rfl (by decide) rfl)
  | .keqvI d m => .logic _ .eqv true d (.imm m) rfl (.imm 7 11 d m rfl (by decide) rfl)
  | .and d r => .logic _ .and false d (.reg r) rfl (.reg 6 4 d r rfl (by decide) rfl)
  | .andI d m => .logic _ .and false d (.imm m) rfl (.imm 7 4 d m rfl (by decide) rfl)
  | .kand d r => .logic _ .and true d (.reg r) rfl (.reg 6 12 d r rfl (by decide) rfl)
  | .kandI d m => .logic _ .and true d (.imm m) rfl (.imm 7 12 d m rfl (by decide) rfl)
  | .ani d r => .logic _ .ani false d (.reg r) rfl (.reg 6 5 d r rfl (by decide) rfl)
  | .aniI d m => .logic _ .ani false d (.imm m) rfl (.imm 7 5 d m rfl (by decide) rfl)
  | .kani d r => .logic _ .ani true d (.reg r) rfl (.reg 6 13 d r rfl (by decide) rfl)
  | .kaniI d m => .logic _ .ani true d (.imm m) rfl (.imm 7 13 d m rfl (by decide) rfl)
  | .nnd d r => .logic _ .nnd false d (.reg r) rfl (.reg 6 6 d r rfl (by decide) rfl)
  | .nndI d m => .logic _ .nnd false d (.imm m) rfl (.imm 7 6 d m rfl (by decide) rfl)
  | .knnd d r => .logic _ .nnd true d (.reg r) rfl (.reg 6 14 d r rfl (by decide) rfl)
  | .knndI d m => .logic _ .nnd true d (.imm m) rfl (.imm 7 14 d m rfl (by decide) rfl)
  | .nai d r => .logic _ .nai false d (.reg r) rfl (.reg 6 7 d r rfl (by decide) rfl)
  | .naiI d m => .logic _ .nai false d (.imm m) rfl (.imm 7 7 d m rfl (by decide) rfl)
  | .knai d r => .logic _ .nai true d (.reg r) rfl (.reg 6 15 d r rfl (by decide) rfl)
  | .knaiI d m => .logic _ .nai true d (.imm m) rfl (.imm 7 15 d m rfl (by decide) rfl)
  | .jumpl b l o => .jump _ b l (.reg o) rfl (.words 8 _ _ _ _ rfl (by decide))
  | .fadd b d => .coproc _ (.short 0) 2 b d rfl (.words 9 _ _ _ _ rfl (by decide))
  | .fsub b d => .coproc _ (.short 1) 2 b d rfl (.words 9 _ _ _ _ rfl (by decide))
  | .fmul b d => .coproc _ (.short 2) 2 b d rfl (.words 9 _ _ _ _ rfl (by decide))
  | .fdiv b d => .coproc _ (.short 3) 2 b d rfl (.words 9 _ _ _ _ rfl (by decide))
  | .stk src d => .stk src d (.words 9 _ _ _ _ rfl (by decide))
  | .rtn _ _ => .refused _ .rtnUnmodelled rfl (.words 9 _ _ _ _ rfl (by decide))
  | .extReserved6 _ _ => .refused _ .reservedExtended rfl (.words 9 _ _ _ _ rfl (by decide))
  | .extReserved7 _ _ => .refused _ .reservedExtended rfl (.words 9 _ _ _ _ rfl (by decide))
  | .extReserved8 _ _ => .refused _ .reservedExtended rfl (.words 9 _ _ _ _ rfl (by decide))
  | .extReserved9 _ _ => .refused _ .reservedExtended rfl (.words 9 _ _ _ _ rfl (by decide))
  | .extReservedA _ _ => .refused _ .reservedExtended rfl (.words 9 _ _ _ _ rfl (by decide))
  | .extReservedB _ _ => .refused _ .reservedExtended rfl (.words 9 _ _ _ _ rfl (by decide))
  | .tadd b d => .coproc _ (.short 12) 2 b d rfl (.words 9 _ _ _ _ rfl (by decide))
  | .tsub b d => .coproc _ (.short 13) 2 b d rfl (.words 9 _ _ _ _ rfl (by decide))
  | .ext16 b d e => .coproc _ (.ext e) 4 b d rfl (.words 9 _ _ _ _ rfl (by decide))
  | .jumplI b l e1 e2 => .jump _ b l (.imm (.long e1 e2)) rfl (.words 9 _ _ _ _ rfl (by decide))
  | .stb b r o => .storeByte _ b r (.reg o) rfl (.words 10 _ _ _ _ rfl (by decide)) (.inl ⟨o, rfl⟩)
  | .stbI b r m => .storeByte _ b r (.imm m) rfl (.imm 11 b r m rfl (by decide)) (.inr ⟨m, rfl⟩)
  | .ld b r o => .load _ b r (.reg o) rfl (.words 12 _ _ _ _ rfl (by decide))
  | .ldI b r m => .load _ b r (.imm m) rfl (.imm 13 b r m rfl (by decide))
  | .st b r o => .store _ b r (.reg o) rfl (.words 14 _ _ _ _ rfl (by decide)) (.inl ⟨o, rfl⟩)
  | .stI b r m => .store _ b r (.imm m) rfl (.imm 15 b r m rfl (by decide)) (.inr ⟨m, rfl⟩)

end Sys2Proof.Machine
end

