-- ==== Sys2Proof/Laws/Effect.lean ====
section
/-! SUPPORT. Everything an instruction can do, said once: one inversion lemma per shared operation and `exec_effect` for
all instructions. The invariants of the step follow from it. -/

namespace Sys2Proof.Machine

/-- What an executed instruction may change: of the registers one word of register memory, of data memory one stored
word or byte, of the running task's STACK only SP; no other task, no parameter, no program text. -/
structure Effect (s t : State) : Prop where
  cfg : t.cfg = s.cfg
  cur : t.cur = s.cur
  turns : t.turns = s.turns
  env : t.env = s.env
  imem : t.imem = s.imem
  draws : s.draws ≤ t.draws
  others : ∀ k : TaskNo, k ≠ s.cur → t.tasks[k] = s.tasks[k]
  stack : ∃ sp, t.stack = { s.stack with sp := sp }
  regMem : t.regMem = s.regMem ∨ ∃ n v, t.regMem = (s.writeReg n v).regMem
  mem : t.mem = s.mem ∨ (∃ a v, a.low2 = 0 ∧ t.mem = (s.memWrite4 a v).mem) ∨ ∃ a v, t.mem = (s.memWrite1 a v).mem

theorem Effect.ofAluRetire (s : State) (k : Bool) (d : Reg) (out : AluOut) (len : Nat) :
    Effect s (s.aluRetire k d out len) where
  cfg := rfl
  cur := rfl
  turns := rfl
  env := rfl
  imem := rfl
  draws := Nat.le_refl _
  others := s.aluRetire_other k d out len
  stack := ⟨s.stack.sp, by simp⟩
  regMem := .inr ⟨_, _, s.aluRetire_regMem k d out len⟩
  mem := .inl rfl

theorem Effect.bumpDraws {s t : State} (h : Effect s t) : Effect s t.bumpDraws where
  cfg := h.cfg
  cur := h.cur
  turns := h.turns
  env := h.env
  imem := h.imem
  draws := Nat.le_succ_of_le h.draws
  others := h.others
  stack := h.stack
  regMem := h.regMem
  mem := h.mem

theorem Effect.setCasc {s t : State} (h : Effect s t) (b : Bool) : Effect s (t.setCasc b) where
  cfg := h.cfg
  cur := h.cur
  turns := h.turns
  env := h.env
  imem := h.imem
  draws := h.draws
  others := h.others
  stack := h.stack
  regMem := h.regMem
  mem := h.mem

/-- A new PC and STATUS add nothing to an effect. -/
theorem Effect.setRegs {s t : State} (h : Effect s t) (r : TaskRegs) (hr : ∃ sp, r.stack = { s.stack with sp := sp }) :
    Effect s (t.setRegs r) where
  cfg := h.cfg
  cur := h.cur
  turns := h.turns
  env := h.env
  imem := h.imem
  draws := h.draws
  others := fun k hk => by
    rw [State.setRegs_other _ _ k (by rw [h.cur]; exact hk)]
    exact h.others k hk
  stack := by simpa using hr
  regMem := h.regMem
  mem := h.mem

theorem Effect.setPc {s t : State} (h : Effect s t) (p : BitVec 32) : Effect s (t.setPc p) := h.setRegs _ h.stack
theorem Effect.setStatus {s t : State} (h : Effect s t) (st : Status) : Effect s (t.setStatus st) :=
  h.setRegs _ h.stack
theorem Effect.setSkip {s t : State} (h : Effect s t) (m : BitVec 8) : Effect s (t.setSkip m) := h.setStatus _
theorem Effect.retire {s t : State} (h : Effect s t) (len : Nat) : Effect s (t.retire len) := (h.setPc _).setCasc _

theorem Effect.refl (s : State) : Effect s s where
  cfg := rfl
  cur := rfl
  turns := rfl
  env := rfl
  imem := rfl
  draws := Nat.le_refl _
  others := fun _ _ => rfl
  stack := ⟨s.stack.sp, rfl⟩
  regMem := .inl rfl
  mem := .inl rfl

theorem Effect.ofWriteReg (s : State) (n : Reg) (v : Word) : Effect s (s.writeReg n v) where
  cfg := rfl
  cur := rfl
  turns := rfl
  env := rfl
  imem := rfl
  draws := Nat.le_refl _
  others := fun _ _ => rfl
  stack := ⟨s.stack.sp, rfl⟩
  regMem := .inr ⟨n, v, rfl⟩
  mem := .inl rfl

theorem Effect.ofMemWrite4 (s : State) (a : DataAddr) (v : Word) (h : a.low2 = 0) : Effect s (s.memWrite4 a v) where
  cfg := rfl
  cur := rfl
  turns := rfl
  env := rfl
  imem := rfl
  draws := Nat.le_refl _
  others := fun _ _ => rfl
  stack := ⟨s.stack.sp, rfl⟩
  regMem := .inl rfl
  mem := .inr (.inl ⟨a, v, h, rfl⟩)

theorem Effect.ofMemWrite1 (s : State) (a : DataAddr) (v : Byte) : Effect s (s.memWrite1 a v) where
  cfg := rfl
  cur := rfl
  turns := rfl
  env := rfl
  imem := rfl
  draws := Nat.le_refl _
  others := fun _ _ => rfl
  stack := ⟨s.stack.sp, rfl⟩
  regMem := .inl rfl
  mem := .inr (.inr ⟨a, v, rfl⟩)

theorem Effect.ofSlide (s : State) (sp : BitVec 14) (ba bb : BitVec 10) : Effect s (s.slide sp ba bb) :=
  (((Effect.refl s).setRegs _ ⟨sp, rfl⟩ : Effect s (s.setStack { s.stack with sp := sp }))).setStatus _

/-! ## The shared operations -/

variable {s t : State}

/-- A MATH group instruction runs unless it is a refused cascade chain, and then ends in `aluRetire`. -/
theorem mathInstr_next {op : MathOp} {k : Bool} {d : Reg} {src : Src} (h : mathInstr op k d src s = .next t) :
    s.chainRefused k = false ∧
      t = s.aluRetire k d (mathOut op (s.destOperand d) (s.srcValue src) s.status.c) (srcLen src) := by
  unfold mathInstr at h
  split at h
  · cases h
  · cases h
    rename_i hc
    exact ⟨by simpa using hc, rfl⟩

theorem shiftInstr_next {op : ShiftOp} {k : Bool} {d : Reg} {src : Src} (h : shiftInstr op k d src s = .next t) :
    s.chainRefused k = false ∧
      t = (s.aluRetire k d (drawFlags s (.shift op) (s.destOperand d) (s.srcValue src)
        (shiftResult op (s.destOperand d) (s.srcValue src))) (srcLen src)).bumpDraws := by
  unfold shiftInstr at h
  split at h
  · cases h
  · cases h
    rename_i hc
    exact ⟨by simpa using hc, rfl⟩

theorem logicInstr_next {op : LogicOp} {k : Bool} {d : Reg} {src : Src} (h : logicInstr op k d src s = .next t) :
    s.chainRefused k = false ∧
      t = (s.aluRetire k d (drawFlags s (.logic op) (s.destOperand d) (s.srcValue src)
        (logicResult op (s.destOperand d) (s.srcValue src))) (srcLen src)).bumpDraws := by
  unfold logicInstr at h
  split at h
  · cases h
  · cases h
    rename_i hc
    exact ⟨by simpa using hc, rfl⟩

/-- A LD that completes has passed its checks, read a word, and written it shifted. -/
theorem load_next {b r : Reg} {src : Src} (h : load b r src s = .next t) :
    s.loadAllowed (s.readReg b) = true ∧
      validAddr s.cfg.valid (s.effectiveAddr (s.readReg b) (s.srcValue src)).aligned 4 = true ∧
      ∃ w, s.memRead4 (s.effectiveAddr (s.readReg b) (s.srcValue src)).aligned = some w ∧
        t = (s.writeReg r (loadValue s.cfg.byteOrder s.cfg.ldFill
          (s.effectiveAddr (s.readReg b) (s.srcValue src)).low2 w)).retire (srcLen src) := by
  simp only [load, raise] at h
  split at h
  · cases h
  · split at h
    · cases h
    · split at h
      · cases h
      · cases h
        rename_i h1 h2 _ w h3
        exact ⟨by simpa using h1, by simpa using h2, w, h3, rfl⟩

/-- A ST that completes has passed its checks and stored the register. -/
theorem store_next {b r : Reg} {src : Src} (h : store b r src s = .next t) :
    s.storeAllowed (s.readReg b) = true ∧
      (s.effectiveAddr (s.readReg b) (s.srcValue src)).low2 = 0 ∧
      validAddr s.cfg.valid (s.effectiveAddr (s.readReg b) (s.srcValue src)) 4 = true ∧
      t = (s.memWrite4 (s.effectiveAddr (s.readReg b) (s.srcValue src)) (s.readReg r)).retire (srcLen src) := by
  simp only [store, raise] at h
  split at h
  · cases h
  · split at h
    · cases h
    · split at h
      · cases h
      · cases h
        rename_i h1 h2 h3
        exact ⟨by simpa using h1, by simpa using h2, by simpa using h3, rfl⟩

theorem storeByte_next {b r : Reg} {src : Src} (h : storeByte b r src s = .next t) :
    s.storeAllowed (s.readReg b) = true ∧
      validAddr s.cfg.valid (s.effectiveAddr (s.readReg b) (s.srcValue src)) 1 = true ∧
      t = (s.memWrite1 (s.effectiveAddr (s.readReg b) (s.srcValue src))
        ((s.readReg r).extractLsb' 0 8)).retire (srcLen src) := by
  simp only [storeByte, raise] at h
  split at h
  · cases h
  · split at h
    · cases h
    · cases h
      rename_i h1 h2
      exact ⟨by simpa using h1, by simpa using h2, rfl⟩

theorem jumpAndLink_next {b l : Reg} {src : Src} (h : jumpAndLink b l src s = .next t) :
    isObjRef (s.readReg b) = false ∧ isObjRef (s.srcValue src) = false ∧
      t = (((s.writeReg l (linkValue s (srcLen src))).setPc (s.readReg b + s.srcValue src)).setSkip 0).setCasc false := by
  simp only [jumpAndLink, refuse] at h
  split at h
  · cases h
  · cases h
    rename_i h1
    simp only [Bool.or_eq_true, not_or, Bool.not_eq_true] at h1
    exact ⟨h1.1, h1.2, rfl⟩

theorem coprocCall_next {code : CoprocCode} {len : Nat} {b d : Reg} (h : coprocCall code len b d s = .next t) :
    coprocHas s.cfg code = true ∧
      t = ((s.writeReg d (Config.coprocResult s.draws code (s.readReg b) (s.readReg d))).retire len).bumpDraws := by
  simp only [coprocCall, refuse] at h
  split at h
  · cases h
    exact ⟨‹_›, rfl⟩
  · cases h

/-- A STK that completes moves SP and perhaps the banks. -/
theorem execStk_next {src d : Reg} (h : execStk src d s = .next t) :
    ∃ ba bb, t = (s.slide (stkSp s.stack.sp src d) ba bb).retire 2 ∨
      t = ((s.slide (stkSp s.stack.sp src d) ba bb).retire 2).bumpDraws := by
  simp only [execStk] at h
  split at h
  · cases h
    exact ⟨_, _, .inl rfl⟩
  · simp only [stkReload, refuse, raise] at h
    split at h
    · cases h
    · split at h
      · cases h
      · split at h <;> cases h <;> exact ⟨_, _, .inr rfl⟩

/-! ## Their effects -/

theorem mathInstr_effect {op : MathOp} {k : Bool} {d : Reg} {src : Src} (h : mathInstr op k d src s = .next t) :
    Effect s t := by
  obtain ⟨-, rfl⟩ := mathInstr_next h
  exact .ofAluRetire ..

theorem shiftInstr_effect {op : ShiftOp} {k : Bool} {d : Reg} {src : Src} (h : shiftInstr op k d src s = .next t) :
    Effect s t := by
  obtain ⟨-, rfl⟩ := shiftInstr_next h
  exact (Effect.ofAluRetire ..).bumpDraws

theorem logicInstr_effect {op : LogicOp} {k : Bool} {d : Reg} {src : Src} (h : logicInstr op k d src s = .next t) :
    Effect s t := by
  obtain ⟨-, rfl⟩ := logicInstr_next h
  exact (Effect.ofAluRetire ..).bumpDraws

theorem load_effect {b r : Reg} {src : Src} (h : load b r src s = .next t) : Effect s t := by
  obtain ⟨-, -, w, -, rfl⟩ := load_next h
  exact (Effect.ofWriteReg ..).retire _

theorem store_effect {b r : Reg} {src : Src} (h : store b r src s = .next t) : Effect s t := by
  obtain ⟨-, ha, -, rfl⟩ := store_next h
  exact (Effect.ofMemWrite4 _ _ _ ha).retire _

theorem storeByte_effect {b r : Reg} {src : Src} (h : storeByte b r src s = .next t) : Effect s t := by
  obtain ⟨-, -, rfl⟩ := storeByte_next h
  exact (Effect.ofMemWrite1 ..).retire _

theorem jumpAndLink_effect {b l : Reg} {src : Src} (h : jumpAndLink b l src s = .next t) : Effect s t := by
  obtain ⟨-, -, rfl⟩ := jumpAndLink_next h
  exact (((Effect.ofWriteReg ..).setPc _).setSkip _).setCasc _

theorem coprocCall_effect {code : CoprocCode} {len : Nat} {b d : Reg} (h : coprocCall code len b d s = .next t) :
    Effect s t := by
  obtain ⟨-, rfl⟩ := coprocCall_next h
  exact ((Effect.ofWriteReg ..).retire _).bumpDraws

theorem execStk_effect {src d : Reg} (h : execStk src d s = .next t) : Effect s t := by
  obtain ⟨ba, bb, rfl | rfl⟩ := execStk_next h
  · exact (Effect.ofSlide ..).retire _
  · exact ((Effect.ofSlide ..).retire _).bumpDraws

theorem execSkip_effect {c : Cond} {m : BitVec 8} (h : execSkip c m s = .next t) : Effect s t := by
  cases h
  split
  · exact ((Effect.refl s).setSkip _).retire _
  · exact (Effect.refl s).retire _

theorem execBranch_effect {c : Cond} {off : BitVec 8} (h : execBranch c off s = .next t) : Effect s t := by
  simp only [execBranch] at h
  split at h
  · cases h
    exact (((Effect.refl s).setPc _).setSkip _).setCasc _
  · cases h
    split
    · exact ((Effect.refl s).setSkip _).retire _
    · exact (Effect.refl s).retire _

/-- Everything any instruction can do when it answers a next state. -/
theorem exec_effect (i : Instr) (h : exec i s = .next t) : Effect s t := by
  cases exec_shape i s with
  | math _ op k d src e _ => exact mathInstr_effect (e ▸ h)
  | shift _ op k d src e _ => exact shiftInstr_effect (e ▸ h)
  | logic _ op k d src e _ => exact logicInstr_effect (e ▸ h)
  | load _ b r src e _ => exact load_effect (e ▸ h)
  | store _ b r src e _ _ => exact store_effect (e ▸ h)
  | storeByte _ b r src e _ _ => exact storeByte_effect (e ▸ h)
  | jump _ b l src e _ => exact jumpAndLink_effect (e ▸ h)
  | coproc _ code len b d e _ => exact coprocCall_effect (e ▸ h)
  | skip c m _ => exact execSkip_effect h
  | branch c off _ => exact execBranch_effect h
  | stk src d _ => exact execStk_effect h
  | refused _ r e _ =>
    rw [e] at h
    cases h

end Sys2Proof.Machine
end

