-- ==== Sys2Proof/Laws/Step.lean ====
section
/-! SUPPORT. What stands around an instruction, said once: what the environment's moves change, what the scheduler
changes, and the four ways a step answers a next state. -/

namespace Sys2Proof.Machine

/-- The environment changes R bits, takes the turns of tasks it makes unready, and changes nothing else but its own list
of moves (rule R246). -/
structure Arrived (s t : State) : Prop where
  cfg : t.cfg = s.cfg
  regMem : t.regMem = s.regMem
  mem : t.mem = s.mem
  imem : t.imem = s.imem
  cascValid : t.cascValid = s.cascValid
  cur : t.cur = s.cur
  draws : t.draws = s.draws
  turns : ∀ k : TaskNo, t.turns[k] = s.turns[k] ∨ t.turns[k] = none
  tasks : ∀ k : TaskNo, ∃ r, t.tasks[k] = { s.tasks[k] with stack := { s.tasks[k].stack with r := r } }

theorem Arrived.refl (s : State) : Arrived s s where
  cfg := rfl
  regMem := rfl
  mem := rfl
  imem := rfl
  cascValid := rfl
  cur := rfl
  draws := rfl
  turns k := .inl rfl
  tasks k := ⟨s.tasks[k].stack.r, rfl⟩

theorem State.setReady_task (s : State) (m : ReadyMove) (k : TaskNo) :
    ∃ r, (s.setReady m).tasks[k] = { s.tasks[k] with stack := { s.tasks[k].stack with r := r } } := by
  by_cases h : (m.task : Nat) = k
  · refine ⟨m.ready, ?_⟩
    have hk : m.task = k := Fin.ext h
    subst hk
    simp [State.setReady]
  · refine ⟨s.tasks[k].stack.r, ?_⟩
    simp [State.setReady, h]

theorem State.setReady_turns (s : State) (m : ReadyMove) (k : TaskNo) :
    (s.setReady m).turns[k] = if m.task = k ∧ m.ready = false then none else s.turns[k] := by
  cases hr : m.ready
  · by_cases hk : m.task = k
    · subst hk
      simp [State.setReady, hr]
    · have : (m.task : Nat) ≠ k := fun e => hk (Fin.ext e)
      simp [State.setReady, hr, hk, this]
  · simp [State.setReady, hr]

theorem Arrived.setReady {s t : State} (h : Arrived s t) (m : ReadyMove) : Arrived s (t.setReady m) where
  cfg := h.cfg
  regMem := h.regMem
  mem := h.mem
  imem := h.imem
  cascValid := h.cascValid
  cur := h.cur
  draws := h.draws
  turns k := by
    rw [State.setReady_turns]
    split
    · exact .inr rfl
    · exact h.turns k
  tasks k := by
    obtain ⟨r, hr⟩ := t.setReady_task m k
    obtain ⟨r', hr'⟩ := h.tasks k
    exact ⟨r, by rw [hr, hr']⟩

theorem Arrived.foldl {s t : State} (ms : List ReadyMove) (h : Arrived s t) :
    Arrived s (ms.foldl State.setReady t) := by
  induction ms generalizing t with
  | nil => exact h
  | cons m ms ih => exact ih (h.setReady m)

theorem State.arrived (s : State) : Arrived s s.arrive := by
  unfold State.arrive
  split
  · exact .refl s
  · exact Arrived.foldl _ ⟨rfl, rfl, rfl, rfl, rfl, rfl, rfl, fun k => .inl rfl, fun k => ⟨s.tasks[k].stack.r, rfl⟩⟩

/-- The earliest task is one of the list, and none of the list is earlier. -/
theorem State.earliest_some {s : State} {ts : List TaskNo} {t : TaskNo} (h : s.earliest ts = some t) :
    t ∈ ts ∧ ∀ u ∈ ts, s.turn t ≤ s.turn u := by
  induction ts generalizing t with
  | nil => cases h
  | cons a ts ih =>
    simp only [State.earliest] at h
    split at h
    · rename_i hn
      cases h
      refine ⟨List.mem_cons_self .., fun u hu => ?_⟩
      cases ts with
      | nil => simp_all
      | cons b ts =>
        simp only [State.earliest] at hn
        split at hn
        · cases hn
        · split at hn <;> cases hn
    · rename_i v hv
      obtain ⟨h1, h2⟩ := ih hv
      split at h <;> cases h <;> rename_i hle
      · refine ⟨List.mem_cons_self .., fun u hu => ?_⟩
        rcases List.mem_cons.mp hu with rfl | hu
        · exact Nat.le_refl _
        · exact hle.trans (h2 u hu)
      · refine ⟨List.mem_cons_of_mem _ h1, fun u hu => ?_⟩
        rcases List.mem_cons.mp hu with rfl | hu
        · omega
        · exact h2 u hu

/-- Of one task or more there is an earliest. -/
theorem State.earliest_none {s : State} {ts : List TaskNo} (h : s.earliest ts = none) : ts = [] := by
  cases ts with
  | nil => rfl
  | cons a ts =>
    simp only [State.earliest] at h
    split at h
    · cases h
    · split at h <;> cases h

theorem State.keepTurns_get (s : State) (ts : List TaskNo) (v : Vector (Option Nat) 16) (k : TaskNo) :
    (s.keepTurns ts v)[k] = if k ∈ ts then some (s.turn k) else v[k] := by
  induction ts generalizing v with
  | nil => simp [State.keepTurns]
  | cons a ts ih =>
    rw [State.keepTurns, ih]
    by_cases hk : k ∈ ts
    · simp [hk]
    · by_cases ha : k = a
      · subst ha
        simp [hk]
      · have : (a : Nat) ≠ k := fun e => ha (Fin.ext e.symm)
        simp [hk, ha, this]

/-- After a task has taken its turn, the ready software tasks passed over hold theirs. -/
theorem State.takeTurn_turns (s : State) (t k : TaskNo) :
    (s.takeTurn t).turns[k] =
      if k = t then none else if k ∈ s.softwareReady then some (s.turn k) else s.turns[k] := by
  by_cases hk : k = t
  · subst hk
    simp [State.takeTurn]
  · have : (t : Nat) ≠ k := fun e => hk (Fin.ext e.symm)
    have h := s.keepTurns_get s.softwareReady s.turns k
    simp only [Fin.getElem_fin] at h
    simp [State.takeTurn, this, h, hk]

/-- What the scheduler does: a cascade goes on; else a hardware task runs and no turn changes; else the ready software
task with the earliest turn takes it. -/
theorem schedule_cases {s u : State} (h : s.schedule = some u) :
    (s.cascValid = true ∧ u = s) ∨
    (s.cascValid = false ∧ ∃ t, hardwareTasks.find? s.ready = some t ∧ u = { s with cur := t }) ∨
    (s.cascValid = false ∧ hardwareTasks.find? s.ready = none ∧
      ∃ t, t ∈ s.softwareReady ∧ (∀ j ∈ s.softwareReady, s.turn t ≤ s.turn j) ∧ u = s.takeTurn t) := by
  unfold State.schedule at h
  split at h
  · cases h
    exact .inl ⟨‹_›, rfl⟩
  · rename_i hc
    rw [Bool.not_eq_true] at hc
    split at h
    · cases h
      exact .inr (.inl ⟨hc, _, ‹_›, rfl⟩)
    · split at h
      · cases h
        exact .inr (.inr ⟨hc, ‹_›, _, (State.earliest_some ‹_›).1, (State.earliest_some ‹_›).2, rfl⟩)
      · cases h

/-- The scheduler changes the running task, the turns and the draw counter only. -/
theorem schedule_some {s t : State} (h : s.schedule = some t) :
    ∃ cur turns draws, t = { s with cur := cur, turns := turns, draws := draws } := by
  rcases schedule_cases h with ⟨-, rfl⟩ | ⟨-, k, -, rfl⟩ | ⟨-, -, k, -, -, rfl⟩
  · exact ⟨_, _, _, rfl⟩
  · exact ⟨_, _, _, rfl⟩
  · exact ⟨_, _, _, rfl⟩

/-- When an instruction comes to run: everything R28 steps 1 to 5 have checked, and the state it runs in. -/
theorem issueRunning_run {s t : State} {i : Instr} (h : issueRunning s = .run i t) :
    s.pc.getLsbD 0 = false ∧ s.stack.p = false ∧ s.stack.b = false ∧ s.banksExist = true ∧ s.skip0 = false ∧
      (∃ rest, decode (s.fetchWords 3 s.pcAddr) = .ok (i, rest)) ∧ t = s.shiftSkip := by
  simp only [issueRunning] at h
  split at h
  · cases h
  · split at h
    · cases h
    · split at h
      · cases h
      · split at h
        · cases h
        · split at h
          · cases h
          · split at h
            · cases h
            · cases h
              rename_i h1 h2 h3 _ _ _ h4 _ rest h5
              simp only [Bool.or_eq_true, not_or, Bool.not_eq_true] at h2
              exact ⟨by simpa using h1, h2.1, h2.2, by simpa using h3, by simpa using h4, ⟨rest, h5⟩, rfl⟩

/-- When a running task's step is over without an instruction and answers a next state, its instruction was skipped. -/
theorem issueRunning_done {s t : State} (h : issueRunning s = .done (.next t)) :
    s.skip0 = true ∧ ∃ w, s.fetchWord s.pcAddr = some w ∧ t = s.shiftSkip.retire (lengthOf w) := by
  simp only [issueRunning, raise, refuse] at h
  split at h
  · cases h
  · split at h
    · cases h
    · split at h
      · cases h
      · split at h
        · cases h
        · rename_i w hw
          split at h
          · cases h
            exact ⟨‹_›, w, hw, rfl⟩
          · split at h <;> cases h

/-- The step of a state whose running task is chosen is that task's. -/
theorem step_of_schedule {s u : State} (h : s.arrive.schedule = some u) :
    step s = match issueRunning u with
      | .done r => r
      | .run i v => exec i v := by
  have e : s.issue = issueRunning u := by simp only [State.issue, h]
  rw [← e]; rfl

/-- A step that answers a next state idles, or passes a skipped instruction by, or runs an instruction. -/
theorem step_cases {s t : State} (h : step s = .next t) :
    (s.arrive.schedule = none ∧ t = s.arrive) ∨
    ∃ u, s.arrive.schedule = some u ∧
      ((u.skip0 = true ∧ ∃ w, u.fetchWord u.pcAddr = some w ∧ t = u.shiftSkip.retire (lengthOf w)) ∨
        ∃ i, issueRunning u = .run i u.shiftSkip ∧ exec i u.shiftSkip = .next t) := by
  simp only [step, State.issue] at h
  split at h
  · rename_i r hr
    subst h
    split at hr
    · cases hr
      exact .inl ⟨‹_›, rfl⟩
    · exact .inr ⟨_, ‹_›, .inl (issueRunning_done hr)⟩
  · rename_i i u' hr
    split at hr
    · cases hr
    · rename_i u hu
      obtain ⟨-, -, -, -, -, -, rfl⟩ := issueRunning_run hr
      exact .inr ⟨u, hu, .inr ⟨i, hr, h⟩⟩

/-- Passing a skipped instruction by has the effect of no instruction. -/
theorem Effect.ofSkipped (s : State) (len : Nat) : Effect s (s.shiftSkip.retire len) :=
  ((Effect.refl s).setSkip _).retire _

/-- An instruction in a state whose skip bits have shifted has its effect on the state before the shift. -/
theorem Effect.afterShift {s t : State} (h : Effect s.shiftSkip t) : Effect s t where
  cfg := h.cfg
  cur := h.cur
  turns := h.turns
  env := h.env
  imem := h.imem
  draws := h.draws
  others k hk := by rw [h.others k hk, State.shiftSkip_other s k hk]
  stack := by simpa using h.stack
  regMem := by
    rcases h.regMem with e | ⟨n, v, e⟩
    · exact .inl e
    · refine .inr ⟨n, v, ?_⟩
      rw [e, State.writeReg_regMem, State.writeReg_regMem,
        State.phys_congr (s := s) (t := s.shiftSkip) (by simp) (by simp) (by simp)]
      rfl
  mem := h.mem

/-- Everything a step can do when it answers a next state: the environment's moves, then nothing, or the effect of one
instruction of the task chosen. -/
theorem step_effect {s t : State} (h : step s = .next t) :
    (s.arrive.schedule = none ∧ t = s.arrive) ∨ ∃ u, s.arrive.schedule = some u ∧ Effect u t := by
  rcases step_cases h with h | ⟨u, hu, ⟨-, w, -, rfl⟩ | ⟨i, -, hx⟩⟩
  · exact .inl h
  · exact .inr ⟨u, hu, .ofSkipped u _⟩
  · exact .inr ⟨u, hu, (exec_effect i hx).afterShift⟩

end Sys2Proof.Machine
end

