-- ==== Sys2Proof/Laws/Fairness.lean ====
section
/-! SUPPORT. The turns of the software tasks: what one step does to them, and the measure that shrinks while a task that
stays ready is passed over (60_exceptions.md rule R248). -/

namespace Sys2Proof.Machine

variable {s t : State}

theorem mem_hardwareTasks (k : TaskNo) : k ∈ hardwareTasks ↔ 8 ≤ k.val := by revert k; decide

theorem mem_softwareReady (s : State) (k : TaskNo) : k ∈ s.softwareReady ↔ k.val < 8 ∧ s.tasks[k].stack.r = true := by
  have h : ∀ k : TaskNo, k ∈ softwareTasks ↔ k.val < 8 := by decide
  simp [State.softwareReady, State.ready, h]

theorem noHardware_iff (s : State) :
    hardwareTasks.find? s.ready = none ↔ ∀ k : TaskNo, 8 ≤ k.val → s.tasks[k].stack.r = false := by
  simp only [List.find?_eq_none, mem_hardwareTasks, State.ready, Bool.not_eq_true]

theorem picksSoftware_iff (s : State) :
    s.picksSoftware ↔ s.arrive.cascValid = false ∧ hardwareTasks.find? s.arrive.ready = none := by
  rw [noHardware_iff, s.arrived.cascValid, State.picksSoftware]

theorem foldl_setReady_turns (ms : List ReadyMove) (s : State) (k : TaskNo)
    (h : ∀ m ∈ ms, m.task = k → m.ready = true) : (ms.foldl State.setReady s).turns[k] = s.turns[k] := by
  induction ms generalizing s with
  | nil => rfl
  | cons m ms ih =>
    rw [List.foldl_cons, ih _ fun m hm => h m (List.mem_cons_of_mem _ hm), State.setReady_turns, if_neg]
    rintro ⟨hk, hr⟩
    have := h m (List.mem_cons_self ..) hk
    simp [hr] at this

/-- The environment's moves leave the turn of a task that stays ready. -/
theorem State.staysReady.turn {k : TaskNo} (h : s.staysReady k) : s.arrive.turns[k] = s.turns[k] := by
  obtain ⟨-, h⟩ := h
  unfold State.arrive
  split
  · rfl
  · rename_i ms rest he
    rw [he] at h
    exact foldl_setReady_turns ms { s with env := rest } k h

/-- What a step does to the turns: it gives the earliest of the ready software tasks its turn, or leaves them as the
environment's moves have made them. -/
theorem step_turns (h : step s = .next t) :
    (¬ s.picksSoftware ∧ t.turns = s.arrive.turns ∧ s.draws ≤ t.draws) ∨
    (s.picksSoftware ∧ s.arrive.softwareReady = [] ∧ t = s.arrive) ∨
    ∃ c ∈ s.arrive.softwareReady, s.picksSoftware ∧ (∀ j ∈ s.arrive.softwareReady, s.arrive.turn c ≤ s.arrive.turn j) ∧
      s.arrive.schedule = some (s.arrive.takeTurn c) ∧ t.turns = (s.arrive.takeTurn c).turns ∧ s.draws < t.draws := by
  have ha := s.arrived
  rcases step_effect h with ⟨hn, rfl⟩ | ⟨u, hu, he⟩
  · refine .inr (.inl ?_)
    simp only [State.schedule] at hn
    split at hn
    · cases hn
    · split at hn
      · cases hn
      · split at hn
        · cases hn
        · rename_i hc _ hh _ hs
          rw [Bool.not_eq_true] at hc
          exact ⟨(picksSoftware_iff s).mpr ⟨hc, hh⟩, State.earliest_none hs, rfl⟩
  · rcases schedule_cases hu with ⟨hc, rfl⟩ | ⟨-, c, hc, rfl⟩ | ⟨hc, hh, c, hm, hle, rfl⟩
    · refine .inl ⟨fun hp => ?_, he.turns, ha.draws ▸ he.draws⟩
      rw [((picksSoftware_iff s).mp hp).1] at hc
      cases hc
    · refine .inl ⟨fun hp => ?_, he.turns, ha.draws ▸ he.draws⟩
      rw [((picksSoftware_iff s).mp hp).2] at hc
      cases hc
    · refine .inr (.inr ⟨c, hm, (picksSoftware_iff s).mpr ⟨hc, hh⟩, hle, hu, he.turns, ?_⟩)
      have : s.arrive.draws + 1 ≤ t.draws := he.draws
      rw [ha.draws] at this
      exact this

/-- The tasks whose turn has come by a draw, or comes at it. -/
def State.aheadOf (s : State) (d : Nat) : Finset TaskNo :=
  Finset.univ.filter fun j => ∃ e, s.turns[j] = some e ∧ e ≤ d

theorem mem_aheadOf {d : Nat} {j : TaskNo} : j ∈ s.aheadOf d ↔ ∃ e, s.turns[j] = some e ∧ e ≤ d := by
  simp [State.aheadOf]

/-- A task that stays ready and is not chosen holds its turn. -/
theorem passedOver_holds {k : TaskNo} {d : Nat} (h : step s = .next t) (hr : s.staysReady k)
    (hn : s.arrive.schedule ≠ some (s.arrive.takeTurn k)) (hd : s.turns[k] = some d) : t.turns[k] = some d := by
  have hk := hr.turn.trans hd
  rcases step_turns h with ⟨-, e, -⟩ | ⟨-, -, rfl⟩ | ⟨c, -, -, -, hs, e, -⟩
  · rw [e, hk]
  · exact hk
  · rw [e, State.takeTurn_turns, if_neg (fun q : k = c => hn (q ▸ hs))]
    split
    · rw [State.turn, hk, Option.getD_some]
    · exact hk

/-- A task that stays ready and is not chosen when a software task is has a turn afterwards. -/
theorem passedOver_draws {k : TaskNo} (h : step s = .next t) (hk : k.val < 8) (hp : s.picksSoftware)
    (hr : s.staysReady k) (hn : s.arrive.schedule ≠ some (s.arrive.takeTurn k)) :
    ∃ d, t.turns[k] = some d := by
  have hm : k ∈ s.arrive.softwareReady := (mem_softwareReady _ k).mpr ⟨hk, hr.1⟩
  rcases step_turns h with ⟨hn', -, -⟩ | ⟨-, he, -⟩ | ⟨c, -, -, -, hs, e, -⟩
  · exact absurd hp hn'
  · rw [he] at hm
    cases hm
  · exact ⟨_, by rw [e, State.takeTurn_turns, if_neg (fun q : k = c => hn (q ▸ hs)), if_pos hm]⟩

/-- Once the draws have passed a turn, no step brings a task ahead of it. -/
theorem aheadOf_step {d : Nat} (h : step s = .next t) (hd : d < s.draws) : t.aheadOf d ⊆ s.aheadOf d := by
  have ha := s.arrived
  have old : ∀ {j : TaskNo} {e : Nat}, s.arrive.turns[j] = some e → s.turns[j] = some e := by
    intro j e he
    rcases ha.turns j with h | h
    · rw [← h, he]
    · rw [h] at he
      cases he
  intro j hj
  obtain ⟨e, he, hle⟩ := mem_aheadOf.mp hj
  refine mem_aheadOf.mpr ⟨e, old ?_, hle⟩
  rcases step_turns h with ⟨-, ht, -⟩ | ⟨-, -, rfl⟩ | ⟨c, -, -, -, -, ht, -⟩
  · rwa [ht] at he
  · exact he
  · rw [ht, State.takeTurn_turns] at he
    split at he
    · cases he
    · split at he
      · simp only [Option.some.injEq, State.turn] at he
        cases hj : s.arrive.turns[j] with
        | some v => rw [hj] at he; exact congrArg some he
        | none =>
          rw [hj, Option.getD_none, ha.draws] at he
          omega
      · exact he

/-- While a task whose turn the draws have passed is passed over, a task ahead of it loses its turn. -/
theorem aheadOf_shrinks {k : TaskNo} {d : Nat} (h : step s = .next t) (hk : k.val < 8) (hp : s.picksSoftware)
    (hr : s.staysReady k) (hd : s.turns[k] = some d) (hl : d < s.draws) :
    s.arrive.schedule = some (s.arrive.takeTurn k) ∨ (t.aheadOf d).card < (s.aheadOf d).card := by
  have ha := s.arrived
  have hm : k ∈ s.arrive.softwareReady := (mem_softwareReady _ k).mpr ⟨hk, hr.1⟩
  have hdk := hr.turn.trans hd
  rcases step_turns h with ⟨hn, -, -⟩ | ⟨-, he, -⟩ | ⟨c, -, -, hle, hs, ht, -⟩
  · exact absurd hp hn
  · rw [he] at hm
    cases hm
  · by_cases hck : c = k
    · exact .inl (hck ▸ hs)
    · refine .inr (Finset.card_lt_card ⟨aheadOf_step h hl, fun hsub => ?_⟩)
      have hc := hle k hm
      rw [State.turn, State.turn, hdk, Option.getD_some] at hc
      cases hv : s.arrive.turns[c] with
      | none =>
        rw [hv, Option.getD_none, ha.draws] at hc
        omega
      | some e =>
        rw [hv, Option.getD_some] at hc
        have hsc : s.turns[c] = some e := by
          rcases ha.turns c with h | h
          · rw [← h, hv]
          · rw [h] at hv
            cases hv
        obtain ⟨e', he', -⟩ := mem_aheadOf.mp (hsub (mem_aheadOf.mpr ⟨e, hsc, hc⟩))
        rw [ht, State.takeTurn_turns, if_pos rfl] at he'
        cases he'

end Sys2Proof.Machine
end

