-- ==== Sys2Proof/Laws/PerInstr.lean ====
section
/-! SUPPORT. A law of every instruction as syntax: its encoding is as long as its first word says (30_encoding.md rules
R70, R76, R77). -/

namespace Sys2Proof.Laws.EncodedLength

/-- The length told by the first word alone is the length of the whole encoding in bytes. -/
def Statement (i : Instr) : Prop :=
  i.wellFormed = true → ∃ w rest, encode i = w :: rest ∧ lengthOf w = 2 * (encode i).length

theorem ofPlain {i : Instr} {a b c d : BitVec 4} (h : encode i = [wordOf a b c d])
    (ha : a = 0 ∨ a = 1 ∨ a.getLsbD 0 = false) : Statement i :=
  fun _ => ⟨_, _, h, by rw [h, lengthOf_wordOf_plain a b c d ha]; rfl⟩

theorem ofImm {i : Instr} {a b c : BitVec 4} {m : Imm} (h : encode i = immWords a b c m)
    (hw : i.wellFormed = m.wellFormed) (h0 : a ≠ 0) (h1 : a ≠ 1) (ha : a.getLsbD 0 = true) : Statement i := by
  intro wf
  rw [hw] at wf
  rw [h]
  cases m with
  | short v =>
    refine ⟨_, _, rfl, ?_⟩
    simp only [Imm.wellFormed, decide_eq_true_eq] at wf
    rw [lengthOf_wordOf_imm a b c v h0 h1 ha, if_neg (fun e => by subst e; exact absurd wf (by decide)),
      if_neg (fun e => by subst e; exact absurd wf (by decide))]
    rfl
  | word e => exact ⟨_, _, rfl, by rw [lengthOf_wordOf_imm a b c 14 h0 h1 ha, if_pos rfl]; rfl⟩
  | long e1 e2 =>
    exact ⟨_, _, rfl, by rw [lengthOf_wordOf_imm a b c 15 h0 h1 ha, if_neg (by decide), if_pos rfl]; rfl⟩

theorem ofGroup9 {i : Instr} {b c d : BitVec 4} {rest : List Word16} (h : encode i = wordOf 9 b c d :: rest)
    (hd : (if d = 14 then 4 else if d = 15 then 6 else 2) = 2 * (rest.length + 1)) : Statement i :=
  fun _ => ⟨_, _, h, by
    rw [h, lengthOf_wordOf_imm 9 b c d (by decide) (by decide) (by decide)]
    simpa using hd⟩

theorem skip (c : Cond) (m : BitVec 8) : Statement (.skip c m) := ofPlain rfl (by decide)
theorem branch (c : Cond) (off : BitVec 8) : Statement (.branch c off) := ofPlain rfl (by decide)
theorem mov (d : Reg) (r : Reg) : Statement (.mov d r) := ofPlain rfl (by decide)
theorem movI (d : Reg) (m : Imm) : Statement (.movI d m) := ofImm rfl rfl (by decide) (by decide) (by decide)
theorem kmov (d : Reg) (r : Reg) : Statement (.kmov d r) := ofPlain rfl (by decide)
theorem kmovI (d : Reg) (m : Imm) : Statement (.kmovI d m) := ofImm rfl rfl (by decide) (by decide) (by decide)
theorem inc (d : Reg) (r : Reg) : Statement (.inc d r) := ofPlain rfl (by decide)
theorem incI (d : Reg) (m : Imm) : Statement (.incI d m) := ofImm rfl rfl (by decide) (by decide) (by decide)
theorem kinc (d : Reg) (r : Reg) : Statement (.kinc d r) := ofPlain rfl (by decide)
theorem kincI (d : Reg) (m : Imm) : Statement (.kincI d m) := ofImm rfl rfl (by decide) (by decide) (by decide)
theorem not (d : Reg) (r : Reg) : Statement (.not d r) := ofPlain rfl (by decide)
theorem notI (d : Reg) (m : Imm) : Statement (.notI d m) := ofImm rfl rfl (by decide) (by decide) (by decide)
theorem knot (d : Reg) (r : Reg) : Statement (.knot d r) := ofPlain rfl (by decide)
theorem knotI (d : Reg) (m : Imm) : Statement (.knotI d m) := ofImm rfl rfl (by decide) (by decide) (by decide)
theorem neg (d : Reg) (r : Reg) : Statement (.neg d r) := ofPlain rfl (by decide)
theorem negI (d : Reg) (m : Imm) : Statement (.negI d m) := ofImm rfl rfl (by decide) (by decide) (by decide)
theorem kneg (d : Reg) (r : Reg) : Statement (.kneg d r) := ofPlain rfl (by decide)
theorem knegI (d : Reg) (m : Imm) : Statement (.knegI d m) := ofImm rfl rfl (by decide) (by decide) (by decide)
theorem add (d : Reg) (r : Reg) : Statement (.add d r) := ofPlain rfl (by decide)
theorem addI (d : Reg) (m : Imm) : Statement (.addI d m) := ofImm rfl rfl (by decide) (by decide) (by decide)
theorem kadd (d : Reg) (r : Reg) : Statement (.kadd d r) := ofPlain rfl (by decide)
theorem kaddI (d : Reg) (m : Imm) : Statement (.kaddI d m) := ofImm rfl rfl (by decide) (by decide) (by decide)
theorem adc (d : Reg) (r : Reg) : Statement (.adc d r) := ofPlain rfl (by decide)
theorem adcI (d : Reg) (m : Imm) : Statement (.adcI d m) := ofImm rfl rfl (by decide) (by decide) (by decide)
theorem kadc (d : Reg) (r : Reg) : Statement (.kadc d r) := ofPlain rfl (by decide)
theorem kadcI (d : Reg) (m : Imm) : Statement (.kadcI d m) := ofImm rfl rfl (by decide) (by decide) (by decide)
theorem sbb (d : Reg) (r : Reg) : Statement (.sbb d r) := ofPlain rfl (by decide)
theorem sbbI (d : Reg) (m : Imm) : Statement (.sbbI d m) := ofImm rfl rfl (by decide) (by decide) (by decide)
theorem ksbb (d : Reg) (r : Reg) : Statement (.ksbb d r) := ofPlain rfl (by decide)
theorem ksbbI (d : Reg) (m : Imm) : Statement (.ksbbI d m) := ofImm rfl rfl (by decide) (by decide) (by decide)
theorem sub (d : Reg) (r : Reg) : Statement (.sub d r) := ofPlain rfl (by decide)
theorem subI (d : Reg) (m : Imm) : Statement (.subI d m) := ofImm rfl rfl (by decide) (by decide) (by decide)
theorem ksub (d : Reg) (r : Reg) : Statement (.ksub d r) := ofPlain rfl (by decide)
theorem ksubI (d : Reg) (m : Imm) : Statement (.ksubI d m) := ofImm rfl rfl (by decide) (by decide) (by decide)
theorem shr (d : Reg) (r : Reg) : Statement (.shr d r) := ofPlain rfl (by decide)
theorem shrI (d : Reg) (m : Imm) : Statement (.shrI d m) := ofImm rfl rfl (by decide) (by decide) (by decide)
theorem kshr (d : Reg) (r : Reg) : Statement (.kshr d r) := ofPlain rfl (by decide)
theorem kshrI (d : Reg) (m : Imm) : Statement (.kshrI d m) := ofImm rfl rfl (by decide) (by decide) (by decide)
theorem shl (d : Reg) (r : Reg) : Statement (.shl d r) := ofPlain rfl (by decide)
theorem shlI (d : Reg) (m : Imm) : Statement (.shlI d m) := ofImm rfl rfl (by decide) (by decide) (by decide)
theorem kshl (d : Reg) (r : Reg) : Statement (.kshl d r) := ofPlain rfl (by decide)
theorem kshlI (d : Reg) (m : Imm) : Statement (.kshlI d m) := ofImm rfl rfl (by decide) (by decide) (by decide)
theorem asr (d : Reg) (r : Reg) : Statement (.asr d r) := ofPlain rfl (by decide)
theorem asrI (d : Reg) (m : Imm) : Statement (.asrI d m) := ofImm rfl rfl (by decide) (by decide) (by decide)
theorem kasr (d : Reg) (r : Reg) : Statement (.kasr d r) := ofPlain rfl (by decide)
theorem kasrI (d : Reg) (m : Imm) : Statement (.kasrI d m) := ofImm rfl rfl (by decide) (by decide) (by decide)
theorem rot (d : Reg) (r : Reg) : Statement (.rot d r) := ofPlain rfl (by decide)
theorem rotI (d : Reg) (m : Imm) : Statement (.rotI d m) := ofImm rfl rfl (by decide) (by decide) (by decide)
theorem krot (d : Reg) (r : Reg) : Statement (.krot d r) := ofPlain rfl (by decide)
theorem krotI (d : Reg) (m : Imm) : Statement (.krotI d m) := ofImm rfl rfl (by decide) (by decide) (by decide)
theorem div (d : Reg) (r : Reg) : Statement (.div d r) := ofPlain rfl (by decide)
theorem divI (d : Reg) (m : Imm) : Statement (.divI d m) := ofImm rfl rfl (by decide) (by decide) (by decide)
theorem kdiv (d : Reg) (r : Reg) : Statement (.kdiv d r) := ofPlain rfl (by decide)
theorem kdivI (d : Reg) (m : Imm) : Statement (.kdivI d m) := ofImm rfl rfl (by decide) (by decide) (by decide)
theorem mul (d : Reg) (r : Reg) : Statement (.mul d r) := ofPlain rfl (by decide)
theorem mulI (d : Reg) (m : Imm) : Statement (.mulI d m) := ofImm rfl rfl (by decide) (by decide) (by decide)
theorem kmul (d : Reg) (r : Reg) : Statement (.kmul d r) := ofPlain rfl (by decide)
theorem kmulI (d : Reg) (m : Imm) : Statement (.kmulI d m) := ofImm rfl rfl (by decide) (by decide) (by decide)
theorem dvs (d : Reg) (r : Reg) : Statement (.dvs d r) := ofPlain rfl (by decide)
theorem dvsI (d : Reg) (m : Imm) : Statement (.dvsI d m) := ofImm rfl rfl (by decide) (by decide) (by decide)
theorem kdvs (d : Reg) (r : Reg) : Statement (.kdvs d r) := ofPlain rfl (by decide)
theorem kdvsI (d : Reg) (m : Imm) : Statement (.kdvsI d m) := ofImm rfl rfl (by decide) (by decide) (by decide)
theorem mls (d : Reg) (r : Reg) : Statement (.mls d r) := ofPlain rfl (by decide)
theorem mlsI (d : Reg) (m : Imm) : Statement (.mlsI d m) := ofImm rfl rfl (by decide) (by decide) (by decide)
theorem kmls (d : Reg) (r : Reg) : Statement (.kmls d r) := ofPlain rfl (by decide)
theorem kmlsI (d : Reg) (m : Imm) : Statement (.kmlsI d m) := ofImm rfl rfl (by decide) (by decide) (by decide)
theorem ior (d : Reg) (r : Reg) : Statement (.ior d r) := ofPlain rfl (by decide)
theorem iorI (d : Reg) (m : Imm) : Statement (.iorI d m) := ofImm rfl rfl (by decide) (by decide) (by decide)
theorem kior (d : Reg) (r : Reg) : Statement (.kior d r) := ofPlain rfl (by decide)
theorem kiorI (d : Reg) (m : Imm) : Statement (.kiorI d m) := ofImm rfl rfl (by decide) (by decide) (by decide)
theorem xor (d : Reg) (r : Reg) : Statement (.xor d r) := ofPlain rfl (by decide)
theorem xorI (d : Reg) (m : Imm) : Statement (.xorI d m) := ofImm rfl rfl (by decide) (by decide) (by decide)
theorem kxor (d : Reg) (r : Reg) : Statement (.kxor d r) := ofPlain rfl (by decide)
theorem kxorI (d : Reg) (m : Imm) : Statement (.kxorI d m) := ofImm rfl rfl (by decide) (by decide) (by decide)
theorem nor (d : Reg) (r : Reg) : Statement (.nor d r) := ofPlain rfl (by decide)
theorem norI (d : Reg) (m : Imm) : Statement (.norI d m) := ofImm rfl rfl (by decide) (by decide) (by decide)
theorem knor (d : Reg) (r : Reg) : Statement (.knor d r) := ofPlain rfl (by decide)
theorem knorI (d : Reg) (m : Imm) : Statement (.knorI d m) := ofImm rfl rfl (by decide) (by decide) (by decide)
theorem eqv (d : Reg) (r : Reg) : Statement (.eqv d r) := ofPlain rfl (by decide)
theorem eqvI (d : Reg) (m : Imm) : Statement (.eqvI d m) := ofImm rfl rfl (by decide) (by decide) (by decide)
theorem keqv (d : Reg) (r : Reg) : Statement (.keqv d r) := ofPlain rfl (by decide)
theorem keqvI (d : Reg) (m : Imm) : Statement (.keqvI d m) := ofImm rfl rfl (by decide) (by decide) (by decide)
theorem and (d : Reg) (r : Reg) : Statement (.and d r) := ofPlain rfl (by decide)
theorem andI (d : Reg) (m : Imm) : Statement (.andI d m) := ofImm rfl rfl (by decide) (by decide) (by decide)
theorem kand (d : Reg) (r : Reg) : Statement (.kand d r) := ofPlain rfl (by decide)
theorem kandI (d : Reg) (m : Imm) : Statement (.kandI d m) := ofImm rfl rfl (by decide) (by decide) (by decide)
theorem ani (d : Reg) (r : Reg) : Statement (.ani d r) := ofPlain rfl (by decide)
theorem aniI (d : Reg) (m : Imm) : Statement (.aniI d m) := ofImm rfl rfl (by decide) (by decide) (by decide)
theorem kani (d : Reg) (r : Reg) : Statement (.kani d r) := ofPlain rfl (by decide)
theorem kaniI (d : Reg) (m : Imm) : Statement (.kaniI d m) := ofImm rfl rfl (by decide) (by decide) (by decide)
theorem nnd (d : Reg) (r : Reg) : Statement (.nnd d r) := ofPlain rfl (by decide)
theorem nndI (d : Reg) (m : Imm) : Statement (.nndI d m) := ofImm rfl rfl (by decide) (by decide) (by decide)
theorem knnd (d : Reg) (r : Reg) : Statement (.knnd d r) := ofPlain rfl (by decide)
theorem knndI (d : Reg) (m : Imm) : Statement (.knndI d m) := ofImm rfl rfl (by decide) (by decide) (by decide)
theorem nai (d : Reg) (r : Reg) : Statement (.nai d r) := ofPlain rfl (by decide)
theorem naiI (d : Reg) (m : Imm) : Statement (.naiI d m) := ofImm rfl rfl (by decide) (by decide) (by decide)
theorem knai (d : Reg) (r : Reg) : Statement (.knai d r) := ofPlain rfl (by decide)
theorem knaiI (d : Reg) (m : Imm) : Statement (.knaiI d m) := ofImm rfl rfl (by decide) (by decide) (by decide)
theorem jumpl (b : Reg) (l : Reg) (o : Reg) : Statement (.jumpl b l o) := ofPlain rfl (by decide)
theorem fadd (b : Reg) (d : Reg) : Statement (.fadd b d) := ofGroup9 rfl rfl
theorem fsub (b : Reg) (d : Reg) : Statement (.fsub b d) := ofGroup9 rfl rfl
theorem fmul (b : Reg) (d : Reg) : Statement (.fmul b d) := ofGroup9 rfl rfl
theorem fdiv (b : Reg) (d : Reg) : Statement (.fdiv b d) := ofGroup9 rfl rfl
theorem stk (b : Reg) (d : Reg) : Statement (.stk b d) := ofGroup9 rfl rfl
theorem rtn (b : Reg) (d : Reg) : Statement (.rtn b d) := ofGroup9 rfl rfl
theorem extReserved6 (b : Reg) (d : Reg) : Statement (.extReserved6 b d) := ofGroup9 rfl rfl
theorem extReserved7 (b : Reg) (d : Reg) : Statement (.extReserved7 b d) := ofGroup9 rfl rfl
theorem extReserved8 (b : Reg) (d : Reg) : Statement (.extReserved8 b d) := ofGroup9 rfl rfl
theorem extReserved9 (b : Reg) (d : Reg) : Statement (.extReserved9 b d) := ofGroup9 rfl rfl
theorem extReservedA (b : Reg) (d : Reg) : Statement (.extReservedA b d) := ofGroup9 rfl rfl
theorem extReservedB (b : Reg) (d : Reg) : Statement (.extReservedB b d) := ofGroup9 rfl rfl
theorem tadd (b : Reg) (d : Reg) : Statement (.tadd b d) := ofGroup9 rfl rfl
theorem tsub (b : Reg) (d : Reg) : Statement (.tsub b d) := ofGroup9 rfl rfl
theorem ext16 (b : Reg) (d : Reg) (e : Word16) : Statement (.ext16 b d e) := ofGroup9 rfl rfl
theorem jumplI (b : Reg) (l : Reg) (e1 : Word16) (e2 : Word16) : Statement (.jumplI b l e1 e2) := ofGroup9 rfl rfl
theorem stb (b : Reg) (r : Reg) (o : Reg) : Statement (.stb b r o) := ofPlain rfl (by decide)
theorem stbI (b : Reg) (r : Reg) (m : Imm) : Statement (.stbI b r m) := ofImm rfl rfl (by decide) (by decide) (by decide)
theorem ld (b : Reg) (r : Reg) (o : Reg) : Statement (.ld b r o) := ofPlain rfl (by decide)
theorem ldI (b : Reg) (r : Reg) (m : Imm) : Statement (.ldI b r m) := ofImm rfl rfl (by decide) (by decide) (by decide)
theorem st (b : Reg) (r : Reg) (o : Reg) : Statement (.st b r o) := ofPlain rfl (by decide)
theorem stI (b : Reg) (r : Reg) (m : Imm) : Statement (.stI b r m) := ofImm rfl rfl (by decide) (by decide) (by decide)

end Sys2Proof.Laws.EncodedLength
end

