-- ==== Sys2Proof/Tests/Slice0.lean ====
section
/-! SUPPORT. Tests of the model and witnesses for its statements. Words are written out from the encoding tables of
30_encoding.md (rules R72 to R74, R76, R79, R80) with the operands 5 and 10, or are those of 95_test_vectors.md; expected
values are those of 95_test_vectors.md, whose vector each test names. -/

namespace Sys2Proof.Tests

open Sys2Proof Sys2Proof.Machine Sys2Proof.Claims

/-! ## Helpers -/

/-- Every task ready, task 15 running, with a PC and the flags N Z C V; BankA, BankB and SP are 0, so that register n is
word n of register memory. -/
def machine (pc : BitVec 32) (nzcv : BitVec 4) (regs : List (Nat × Word)) : State :=
  { State.reset with
    tasks := Vector.replicate 16 ⟨pc,
      { Status.reset with
        n := nzcv.getLsbD 3, z := nzcv.getLsbD 2, c := nzcv.getLsbD 1, v := nzcv.getLsbD 0 },
      Stack.reset true⟩
    regMem := regs }

/-- The flags N Z C V. -/
def nzcv (s : State) : BitVec 4 :=
  BitVec.ofBool s.status.n ++ BitVec.ofBool s.status.z ++ BitVec.ofBool s.status.c ++ BitVec.ofBool s.status.v

/-- What is seen of the state a step answers. -/
def seen {α : Type} (r : Result) (f : State → α) : Option α :=
  match r with
  | .next t => some (f t)
  | _ => none

/-- The fault a step ends in. -/
def faultOf (r : Result) : Option Fault :=
  match r with
  | .fault f => some f
  | _ => none

/-- The refusal a step ends in. -/
def refusalOf (r : Result) : Option Refusal :=
  match r with
  | .refused f => some f
  | _ => none

/-- The state with new special registers for every task. -/
def withRegs (s : State) (pc : BitVec 32) (st : Status) (sk : Stack) : State :=
  { s with tasks := Vector.replicate 16 ⟨pc, st, sk⟩ }

/-- A step on one instruction word, and on one of 32 bits, the first word in the low half. -/
def run1 (s : State) (w : Nat) : Result := step (s.withFetchWord 16 w)
def run2 (s : State) (w : Nat) : Result := step (s.withFetchWord 32 w)

/-- The bytes of a word at an address, lowest address first. -/
def bytesAt (s : State) (k : Nat) : List (Option Byte) :=
  [s.readByte k, s.readByte (k + 1), s.readByte (k + 2), s.readByte (k + 3)]

/-! ## Well-formedness -/

theorem test_short_fourteen_refused : (Instr.addI 1 (.short 14)).wellFormed = false := by decide
theorem test_short_fifteen_refused : (Instr.ldI 1 2 (.short 15)).wellFormed = false := by decide
theorem test_short_thirteen_allowed : (Instr.addI 1 (.short 13)).wellFormed = true := by decide

/-! ## Decoding: a word of every constructor -/

theorem test_decode_skip_conditions :
    decodeTableWord 16 0x0081 = some (.skip ⟨.zero, false⟩ 0x81) ∧
    decodeTableWord 16 0x0181 = some (.skip ⟨.zero, true⟩ 0x81) ∧
    decodeTableWord 16 0x0281 = some (.skip ⟨.carry, false⟩ 0x81) ∧
    decodeTableWord 16 0x0381 = some (.skip ⟨.carry, true⟩ 0x81) ∧
    decodeTableWord 16 0x0481 = some (.skip ⟨.negative, false⟩ 0x81) ∧
    decodeTableWord 16 0x0581 = some (.skip ⟨.negative, true⟩ 0x81) ∧
    decodeTableWord 16 0x0681 = some (.skip ⟨.overflow, false⟩ 0x81) ∧
    decodeTableWord 16 0x0781 = some (.skip ⟨.overflow, true⟩ 0x81) ∧
    decodeTableWord 16 0x0881 = some (.skip ⟨.less, false⟩ 0x81) ∧
    decodeTableWord 16 0x0981 = some (.skip ⟨.less, true⟩ 0x81) ∧
    decodeTableWord 16 0x0A81 = some (.skip ⟨.lessOrEqual, false⟩ 0x81) ∧
    decodeTableWord 16 0x0B81 = some (.skip ⟨.lessOrEqual, true⟩ 0x81) ∧
    decodeTableWord 16 0x0C81 = some (.skip ⟨.lowerOrSame, false⟩ 0x81) ∧
    decodeTableWord 16 0x0D81 = some (.skip ⟨.lowerOrSame, true⟩ 0x81) ∧
    decodeTableWord 16 0x0E81 = some (.skip ⟨.always, false⟩ 0x81) ∧
    decodeTableWord 16 0x0F81 = some (.skip ⟨.always, true⟩ 0x81) := by decide

theorem test_decode_branch :
    decodeTableWord 16 0x10FC = some (.branch ⟨.zero, false⟩ 0xFC) ∧
    decodeTableWord 16 0x1F06 = some (.branch ⟨.always, true⟩ 6) := by decide

theorem test_decode_math :
    decodeTableWord 16 0x205A = some (.mov 5 10) ∧
    decodeTableWord 16 0x305A = some (.movI 5 (.short 10)) ∧
    decodeTableWord 16 0x285A = some (.kmov 5 10) ∧
    decodeTableWord 16 0x385A = some (.kmovI 5 (.short 10)) ∧
    decodeTableWord 16 0x215A = some (.inc 5 10) ∧
    decodeTableWord 16 0x315A = some (.incI 5 (.short 10)) ∧
    decodeTableWord 16 0x295A = some (.kinc 5 10) ∧
    decodeTableWord 16 0x395A = some (.kincI 5 (.short 10)) ∧
    decodeTableWord 16 0x225A = some (.not 5 10) ∧
    decodeTableWord 16 0x325A = some (.notI 5 (.short 10)) ∧
    decodeTableWord 16 0x2A5A = some (.knot 5 10) ∧
    decodeTableWord 16 0x3A5A = some (.knotI 5 (.short 10)) ∧
    decodeTableWord 16 0x235A = some (.neg 5 10) ∧
    decodeTableWord 16 0x335A = some (.negI 5 (.short 10)) ∧
    decodeTableWord 16 0x2B5A = some (.kneg 5 10) ∧
    decodeTableWord 16 0x3B5A = some (.knegI 5 (.short 10)) ∧
    decodeTableWord 16 0x245A = some (.add 5 10) ∧
    decodeTableWord 16 0x345A = some (.addI 5 (.short 10)) ∧
    decodeTableWord 16 0x2C5A = some (.kadd 5 10) ∧
    decodeTableWord 16 0x3C5A = some (.kaddI 5 (.short 10)) ∧
    decodeTableWord 16 0x255A = some (.adc 5 10) ∧
    decodeTableWord 16 0x355A = some (.adcI 5 (.short 10)) ∧
    decodeTableWord 16 0x2D5A = some (.kadc 5 10) ∧
    decodeTableWord 16 0x3D5A = some (.kadcI 5 (.short 10)) ∧
    decodeTableWord 16 0x265A = some (.sbb 5 10) ∧
    decodeTableWord 16 0x365A = some (.sbbI 5 (.short 10)) ∧
    decodeTableWord 16 0x2E5A = some (.ksbb 5 10) ∧
    decodeTableWord 16 0x3E5A = some (.ksbbI 5 (.short 10)) ∧
    decodeTableWord 16 0x275A = some (.sub 5 10) ∧
    decodeTableWord 16 0x375A = some (.subI 5 (.short 10)) ∧
    decodeTableWord 16 0x2F5A = some (.ksub 5 10) ∧
    decodeTableWord 16 0x3F5A = some (.ksubI 5 (.short 10)) := by decide

theorem test_decode_shift :
    decodeTableWord 16 0x405A = some (.shr 5 10) ∧
    decodeTableWord 16 0x505A = some (.shrI 5 (.short 10)) ∧
    decodeTableWord 16 0x485A = some (.kshr 5 10) ∧
    decodeTableWord 16 0x585A = some (.kshrI 5 (.short 10)) ∧
    decodeTableWord 16 0x415A = some (.shl 5 10) ∧
    decodeTableWord 16 0x515A = some (.shlI 5 (.short 10)) ∧
    decodeTableWord 16 0x495A = some (.kshl 5 10) ∧
    decodeTableWord 16 0x595A = some (.kshlI 5 (.short 10)) ∧
    decodeTableWord 16 0x425A = some (.asr 5 10) ∧
    decodeTableWord 16 0x525A = some (.asrI 5 (.short 10)) ∧
    decodeTableWord 16 0x4A5A = some (.kasr 5 10) ∧
    decodeTableWord 16 0x5A5A = some (.kasrI 5 (.short 10)) ∧
    decodeTableWord 16 0x435A = some (.rot 5 10) ∧
    decodeTableWord 16 0x535A = some (.rotI 5 (.short 10)) ∧
    decodeTableWord 16 0x4B5A = some (.krot 5 10) ∧
    decodeTableWord 16 0x5B5A = some (.krotI 5 (.short 10)) ∧
    decodeTableWord 16 0x445A = some (.div 5 10) ∧
    decodeTableWord 16 0x545A = some (.divI 5 (.short 10)) ∧
    decodeTableWord 16 0x4C5A = some (.kdiv 5 10) ∧
    decodeTableWord 16 0x5C5A = some (.kdivI 5 (.short 10)) ∧
    decodeTableWord 16 0x455A = some (.mul 5 10) ∧
    decodeTableWord 16 0x555A = some (.mulI 5 (.short 10)) ∧
    decodeTableWord 16 0x4D5A = some (.kmul 5 10) ∧
    decodeTableWord 16 0x5D5A = some (.kmulI 5 (.short 10)) ∧
    decodeTableWord 16 0x465A = some (.dvs 5 10) ∧
    decodeTableWord 16 0x565A = some (.dvsI 5 (.short 10)) ∧
    decodeTableWord 16 0x4E5A = some (.kdvs 5 10) ∧
    decodeTableWord 16 0x5E5A = some (.kdvsI 5 (.short 10)) ∧
    decodeTableWord 16 0x475A = some (.mls 5 10) ∧
    decodeTableWord 16 0x575A = some (.mlsI 5 (.short 10)) ∧
    decodeTableWord 16 0x4F5A = some (.kmls 5 10) ∧
    decodeTableWord 16 0x5F5A = some (.kmlsI 5 (.short 10)) := by decide

theorem test_decode_logic :
    decodeTableWord 16 0x605A = some (.ior 5 10) ∧
    decodeTableWord 16 0x705A = some (.iorI 5 (.short 10)) ∧
    decodeTableWord 16 0x685A = some (.kior 5 10) ∧
    decodeTableWord 16 0x785A = some (.kiorI 5 (.short 10)) ∧
    decodeTableWord 16 0x615A = some (.xor 5 10) ∧
    decodeTableWord 16 0x715A = some (.xorI 5 (.short 10)) ∧
    decodeTableWord 16 0x695A = some (.kxor 5 10) ∧
    decodeTableWord 16 0x795A = some (.kxorI 5 (.short 10)) ∧
    decodeTableWord 16 0x625A = some (.nor 5 10) ∧
    decodeTableWord 16 0x725A = some (.norI 5 (.short 10)) ∧
    decodeTableWord 16 0x6A5A = some (.knor 5 10) ∧
    decodeTableWord 16 0x7A5A = some (.knorI 5 (.short 10)) ∧
    decodeTableWord 16 0x635A = some (.eqv 5 10) ∧
    decodeTableWord 16 0x735A = some (.eqvI 5 (.short 10)) ∧
    decodeTableWord 16 0x6B5A = some (.keqv 5 10) ∧
    decodeTableWord 16 0x7B5A = some (.keqvI 5 (.short 10)) ∧
    decodeTableWord 16 0x645A = some (.and 5 10) ∧
    decodeTableWord 16 0x745A = some (.andI 5 (.short 10)) ∧
    decodeTableWord 16 0x6C5A = some (.kand 5 10) ∧
    decodeTableWord 16 0x7C5A = some (.kandI 5 (.short 10)) ∧
    decodeTableWord 16 0x655A = some (.ani 5 10) ∧
    decodeTableWord 16 0x755A = some (.aniI 5 (.short 10)) ∧
    decodeTableWord 16 0x6D5A = some (.kani 5 10) ∧
    decodeTableWord 16 0x7D5A = some (.kaniI 5 (.short 10)) ∧
    decodeTableWord 16 0x665A = some (.nnd 5 10) ∧
    decodeTableWord 16 0x765A = some (.nndI 5 (.short 10)) ∧
    decodeTableWord 16 0x6E5A = some (.knnd 5 10) ∧
    decodeTableWord 16 0x7E5A = some (.knndI 5 (.short 10)) ∧
    decodeTableWord 16 0x675A = some (.nai 5 10) ∧
    decodeTableWord 16 0x775A = some (.naiI 5 (.short 10)) ∧
    decodeTableWord 16 0x6F5A = some (.knai 5 10) ∧
    decodeTableWord 16 0x7F5A = some (.knaiI 5 (.short 10)) := by decide

theorem test_decode_immediates :
    decodeTableWord 16 0x341D = some (.addI 1 (.short 13)) ∧
    decodeTableWord 32 0x000E341E = some (.addI 1 (.word 14)) ∧
    decodeTableWord 48 0x12345678341F = some (.addI 1 (.long 0x5678 0x1234)) ∧
    decodeTableWord 32 0x00FF745E = some (.andI 5 (.word 0x00FF)) ∧
    decodeTableWord 48 0x800170025B6F = some (.krotI 6 (.long 0x7002 0x8001)) ∧
    decodeTableWord 32 0x0104FF2E = some (.stI 15 2 (.word 0x0104)) ∧
    decodeTableWord 48 0x00010002D12F = some (.ldI 1 2 (.long 2 1)) ∧
    decodeTableWord 32 0xFFFFB12E = some (.stbI 1 2 (.word 0xFFFF)) := by decide

theorem test_decode_memory :
    decodeTableWord 16 0xA3A7 = some (.stb 3 10 7) ∧
    decodeTableWord 16 0xB3A7 = some (.stbI 3 10 (.short 7)) ∧
    decodeTableWord 16 0xC3A7 = some (.ld 3 10 7) ∧
    decodeTableWord 16 0xD3A7 = some (.ldI 3 10 (.short 7)) ∧
    decodeTableWord 16 0xE3A7 = some (.st 3 10 7) ∧
    decodeTableWord 16 0xF3A7 = some (.stI 3 10 (.short 7)) := by decide

theorem test_decode_extended :
    decodeTableWord 16 0x85EF = some (.jumpl 5 14 15) ∧
    decodeTableWord 48 0x000003009FEF = some (.jumplI 15 14 0x0300 0) ∧
    decodeTableWord 16 0x93A0 = some (.fadd 3 10) ∧
    decodeTableWord 16 0x93A1 = some (.fsub 3 10) ∧
    decodeTableWord 16 0x93A2 = some (.fmul 3 10) ∧
    decodeTableWord 16 0x93A3 = some (.fdiv 3 10) ∧
    decodeTableWord 16 0x93A4 = some (.stk 3 10) ∧
    decodeTableWord 16 0x93A5 = some (.rtn 3 10) ∧
    decodeTableWord 16 0x93A6 = some (.extReserved6 3 10) ∧
    decodeTableWord 16 0x93A7 = some (.extReserved7 3 10) ∧
    decodeTableWord 16 0x93A8 = some (.extReserved8 3 10) ∧
    decodeTableWord 16 0x93A9 = some (.extReserved9 3 10) ∧
    decodeTableWord 16 0x93AA = some (.extReservedA 3 10) ∧
    decodeTableWord 16 0x93AB = some (.extReservedB 3 10) ∧
    decodeTableWord 16 0x93AC = some (.tadd 3 10) ∧
    decodeTableWord 16 0x93AD = some (.tsub 3 10) ∧
    decodeTableWord 32 0x1234912E = some (.ext16 1 2 0x1234) := by decide

/-- 30_encoding.md rule R82: the word 0000 is a SKIP with no effect. -/
theorem test_decode_zero_word : decodeTableWord 16 0x0000 = some (.skip ⟨.zero, false⟩ 0) := by decide

theorem test_no_word_is_rejected : decode [] = .error .noFirstWord := by rfl
theorem test_missing_extension_is_rejected : decode [0x341F, 0x5678] = .error .extensionMissing := by rfl

/-! ## MATH: vectors A1 to A22 -/

/-- A1 -/
theorem test_mov_immediate :
    seen (step ((machine 0x100 0b1011 []).withFetchWord 16 0x3015))
      (fun t => (t.readReg 1, nzcv t, t.pc)) = some (0x00000005, 0b0000, 0x102) := by decide

/-- A2 -/
theorem test_mov_zero_register :
    seen (step ((machine 0x100 0b1011 [(1, 0x00000007)]).withFetchWord 16 0x201F))
      (fun t => (t.readReg 1, nzcv t, t.pc)) = some (0x00000000, 0b0100, 0x102) := by decide

/-- A3 -/
theorem test_inc_wraps :
    seen (step ((machine 0x100 0 [(3, 0xFFFFFFFF)]).withFetchWord 16 0x2123))
      (fun t => (t.readReg 2, nzcv t, t.pc)) = some (0x00000000, 0b0110, 0x102) := by decide

/-- A4 -/
theorem test_inc_overflows :
    seen (step ((machine 0x100 0 [(3, 0x7FFFFFFF)]).withFetchWord 16 0x2123))
      (fun t => (t.readReg 2, nzcv t, t.pc)) = some (0x80000000, 0b1001, 0x102) := by decide

/-- A5 -/
theorem test_not :
    seen (step ((machine 0x100 0 []).withFetchWord 16 0x3210))
      (fun t => (t.readReg 1, nzcv t, t.pc)) = some (0xFFFFFFFF, 0b1000, 0x102) := by decide

/-- A7 -/
theorem test_neg_lowest :
    seen (step ((machine 0x100 0 [(2, 0x80000000)]).withFetchWord 16 0x2312))
      (fun t => (t.readReg 1, nzcv t, t.pc)) = some (0x80000000, 0b1001, 0x102) := by decide

/-- A8 -/
theorem test_neg_zero :
    seen (step ((machine 0x100 0 []).withFetchWord 16 0x2312))
      (fun t => (t.readReg 1, nzcv t, t.pc)) = some (0x00000000, 0b0110, 0x102) := by decide

/-- A9 -/
theorem test_add_overflows :
    seen (step ((machine 0x100 0 [(1, 0x7FFFFFFF), (2, 0x00000001)]).withFetchWord 16 0x2412))
      (fun t => (t.readReg 1, nzcv t, t.pc)) = some (0x80000000, 0b1001, 0x102) := by decide

/-- A21 -/
theorem test_add_long_immediate :
    seen (step ((machine 0x100 0 [(1, 0x00000001)]).withFetchWord 48 0x12345678341F))
      (fun t => (t.readReg 1, nzcv t, t.pc)) = some (0x12345679, 0b0000, 0x106) := by decide

/-- A13 -/
theorem test_adc :
    seen (step ((machine 0x100 0b0010 [(1, 0xFFFFFFFF)]).withFetchWord 16 0x2512))
      (fun t => (t.readReg 1, nzcv t, t.pc)) = some (0x00000000, 0b0110, 0x102) := by decide

/-- A14 -/
theorem test_sbb_borrows :
    seen (step ((machine 0x100 0 [(1, 0x00000001)]).withFetchWord 16 0x2612))
      (fun t => (t.readReg 1, nzcv t, t.pc)) = some (0x00000000, 0b0110, 0x102) := by decide

/-- A15 -/
theorem test_sbb :
    seen (step ((machine 0x100 0b0010 [(1, 0x00000005), (2, 0x00000003)]).withFetchWord 16 0x2612))
      (fun t => (t.readReg 1, nzcv t, t.pc)) = some (0x00000002, 0b0010, 0x102) := by decide

/-- A16 -/
theorem test_sub_borrows :
    seen (step ((machine 0x100 0 [(1, 0x00000005), (2, 0x00000007)]).withFetchWord 16 0x2712))
      (fun t => (t.readReg 1, nzcv t, t.pc)) = some (0xFFFFFFFE, 0b1000, 0x102) := by decide

/-- A19 -/
theorem test_sub_overflows :
    seen (step ((machine 0x100 0 [(1, 0x80000000), (2, 0x00000001)]).withFetchWord 16 0x2712))
      (fun t => (t.readReg 1, nzcv t, t.pc)) = some (0x7FFFFFFF, 0b0011, 0x102) := by decide

/-- A22: a result for R15 sets the flags only, but its word is written. -/
theorem test_add_to_register_fifteen :
    seen (run1 (machine 0x100 0 [(2, 0xFFFFFFFF)]) 0x24F2) (fun t => (t.readReg 15, t.readPhys 15, nzcv t)) =
      some (0, 0xFFFFFFFF, 0b1000) := by decide

/-! ## SHIFT: vectors S1 to S21, whose C and V are draws -/

/-- S1 -/
theorem test_shr :
    seen (run1 (machine 0x100 0 [(1, 0x80000010)]) 0x5014) (fun t => (t.readReg 1, t.status.n, t.status.z)) =
      some (0x08000001, false, false) := by decide

/-- S9 -/
theorem test_shr_by_31 :
    seen (run1 (machine 0x100 0 [(1, 0x80000000), (2, 0x0000001F)]) 0x4012) (fun t => (t.readReg 1, t.status.n, t.status.z)) =
      some (0x00000001, false, false) := by decide

/-- S3 -/
theorem test_shl_out :
    seen (run1 (machine 0x100 0 [(1, 0x80000000)]) 0x5111) (fun t => (t.readReg 1, t.status.n, t.status.z)) =
      some (0x00000000, false, true) := by decide

/-- S4 -/
theorem test_asr_negative :
    seen (run1 (machine 0x100 0 [(1, 0x80000010)]) 0x5214) (fun t => (t.readReg 1, t.status.n, t.status.z)) =
      some (0xF8000001, true, false) := by decide

/-- S5 -/
theorem test_asr_positive :
    seen (run1 (machine 0x100 0 [(1, 0x70000010)]) 0x5214) (fun t => (t.readReg 1, t.status.n, t.status.z)) =
      some (0x07000001, false, false) := by decide

/-- S6 -/
theorem test_rot :
    seen (run1 (machine 0x100 0 [(1, 0x80000001)]) 0x5314) (fun t => (t.readReg 1, t.status.n, t.status.z)) =
      some (0x00000018, false, false) := by decide

/-- S8 -/
theorem test_rot_by_31 :
    seen (run1 (machine 0x100 0 [(1, 0x80000001), (2, 0x0000001F)]) 0x4312) (fun t => (t.readReg 1, t.status.n, t.status.z)) =
      some (0xC0000000, true, false) := by decide

/-- S12 -/
theorem test_div :
    seen (run1 (machine 0x100 0 [(1, 0xFFFFFFFF), (2, 0x00000002)]) 0x4412) (fun t => (t.readReg 1, t.status.n, t.status.z)) =
      some (0x7FFFFFFF, false, false) := by decide

/-- S14 -/
theorem test_mul :
    seen (run1 (machine 0x100 0 [(1, 0x00010000), (2, 0x00010001)]) 0x4512) (fun t => (t.readReg 1, t.status.n, t.status.z)) =
      some (0x00010000, false, false) := by decide

/-- S17 -/
theorem test_dvs :
    seen (run1 (machine 0x100 0 [(1, 0x00000007), (2, 0xFFFFFFFE)]) 0x4612) (fun t => (t.readReg 1, t.status.n, t.status.z)) =
      some (0xFFFFFFFD, true, false) := by decide

/-- S18 -/
theorem test_dvs_toward_zero :
    seen (run1 (machine 0x100 0 [(1, 0xFFFFFFFF), (2, 0x00000002)]) 0x4612) (fun t => (t.readReg 1, t.status.n, t.status.z)) =
      some (0x00000000, false, true) := by decide

/-- S20 -/
theorem test_mls :
    seen (run1 (machine 0x100 0 [(1, 0xFFFFFFFD), (2, 0x00000005)]) 0x4712) (fun t => (t.readReg 1, t.status.n, t.status.z)) =
      some (0xFFFFFFF1, true, false) := by decide

/-- S10: a shift by 32 completes. -/
theorem test_shr_by_32 :
    seen (run1 (machine 0x100 0 [(1, 5), (2, 32)]) 0x4012) (fun t => (t.pc, t.draws)) = some (0x102, 1) := by decide

/-- S13: a division by zero completes. -/
theorem test_div_by_zero :
    seen (run1 (machine 0x100 0 [(1, 5)]) 0x4412) (fun t => (t.pc, t.draws)) = some (0x102, 1) := by decide

/-! ## LOGIC: vectors L1 to L8 -/

/-- L1 -/
theorem test_ior :
    seen (run1 (machine 0x100 0 [(1, 0xFF00FF00), (2, 0x0F0F0F0F)]) 0x6012) (fun t => (t.readReg 1, t.status.n, t.status.z)) =
      some (0xFF0FFF0F, true, false) := by decide

/-- L2 -/
theorem test_xor :
    seen (run1 (machine 0x100 0 [(1, 0xFF00FF00), (2, 0x0F0F0F0F)]) 0x6112) (fun t => (t.readReg 1, t.status.n, t.status.z)) =
      some (0xF00FF00F, true, false) := by decide

/-- L3 -/
theorem test_nor :
    seen (run1 (machine 0x100 0 [(1, 0xFF00FF00), (2, 0x0F0F0F0F)]) 0x6212) (fun t => (t.readReg 1, t.status.n, t.status.z)) =
      some (0x00F000F0, false, false) := by decide

/-- L4 -/
theorem test_eqv :
    seen (run1 (machine 0x100 0 [(1, 0xFF00FF00), (2, 0x0F0F0F0F)]) 0x6312) (fun t => (t.readReg 1, t.status.n, t.status.z)) =
      some (0x0FF00FF0, false, false) := by decide

/-- L5 -/
theorem test_and :
    seen (run1 (machine 0x100 0 [(1, 0xFF00FF00), (2, 0x0F0F0F0F)]) 0x6412) (fun t => (t.readReg 1, t.status.n, t.status.z)) =
      some (0x0F000F00, false, false) := by decide

/-- L6 -/
theorem test_ani :
    seen (run1 (machine 0x100 0 [(1, 0xFF00FF00), (2, 0x0F0F0F0F)]) 0x6512) (fun t => (t.readReg 1, t.status.n, t.status.z)) =
      some (0x000F000F, false, false) := by decide

/-- L7 -/
theorem test_nnd :
    seen (run1 (machine 0x100 0 [(1, 0xFF00FF00), (2, 0x0F0F0F0F)]) 0x6612) (fun t => (t.readReg 1, t.status.n, t.status.z)) =
      some (0xF0FFF0FF, true, false) := by decide

/-- L8 -/
theorem test_nai :
    seen (run1 (machine 0x100 0 [(1, 0xFF00FF00), (2, 0x0F0F0F0F)]) 0x6712) (fun t => (t.readReg 1, t.status.n, t.status.z)) =
      some (0xFFF0FFF0, true, false) := by decide

/-! ## Cascades: vectors K4, K7, K8 -/

/-- K8, its first instruction: the constant goes to the latch, and R0 is not written. -/
theorem test_kmov_writes_no_register :
    seen (run1 (machine 0x100 0 [(1, 100), (2, 2)]) 0x3807) (fun t => (t.cascValid, t.cascValue, t.readReg 0)) =
      some (true, 7, 0) := by decide

/-- K8, its second instruction: 7 - 2, whatever R1 holds. -/
theorem test_sub_takes_the_cascade :
    seen (run1 { machine 0x100 0 [(1, 100), (2, 2), (15, 7)] with cascValid := true } 0x2712)
      (fun t => (t.readReg 1, nzcv t, t.cascValid)) = some (5, 0b0010, false) := by decide

/-- K7, its second instruction. -/
theorem test_ior_takes_the_cascade :
    seen (run1 { machine 0x100 0 [(2, 0xFFFF), (3, 5), (15, 0xAB0)] with cascValid := true } 0x6023)
      (fun t => t.readReg 2) = some 0xAB5 := by decide

/-- K4 -/
theorem test_cascade_chain_refused :
    refusalOf (run1 { machine 0x100 0 [(15, 7)] with cascValid := true } 0x2C34) = some .cascadeChain := by decide

/-! ## SKIP and BRANCH -/

/-- SK7: the shift comes first, then the OR. -/
theorem test_skip_after_the_shift :
    seen (run1 (withRegs (machine 0x100 0 []) 0x100 { Status.reset with skip := 0b01000000 } (Stack.reset true)) 0x0F20)
      (fun t => (t.status.skip, t.pc)) = some (0b10100000, 0x102) := by decide

/-- SK3, its second instruction: a six byte instruction is skipped whole. -/
theorem test_skip_passes_extension_words :
    seen (step (withRegs ((machine 0x102 0 []).withFetchWord 48 0x12345678301F) 0x102
      { Status.reset with skip := 0b10000000 } (Stack.reset true)))
      (fun t => (t.readReg 1, t.status.skip, t.pc)) = some (0, 0, 0x108) := by decide

/-- BR1 -/
theorem test_branch_backward : seen (run1 (machine 0x108 0 []) 0x10FC) (fun t => t.pc) = some 0x104 := by decide

/-- BR7 -/
theorem test_branch_wraps : seen (run1 (machine 0x0FFFFFFE 0 []) 0x1F04) (fun t => t.pc) = some 0x2 := by decide

/-- BR3, with both parameters changed. -/
theorem test_branch_parameters :
    seen (run1 { machine 0x100 0 [] with cfg := { Config.default with pcVisible := .next, branchScale := .two } } 0x1F06)
      (fun t => t.pc) = some 0x10E := by decide

/-- BR8: the step after it stops. -/
theorem test_odd_pc : faultOf (step (machine 0x101 0 [])) = some (.misalignedFetch 0x101) := by decide

/-! ## LD, ST, STB: vectors M1 to M15; the byte vector of task 0 is the object 0x80000000 -/

/-- M1 -/
theorem test_st_little_endian :
    seen (run1 (machine 0x100 0 [(1, 0x100), (2, 0x11223344)]) 0xF120) (fun t => bytesAt t (0x80000000 * 2 ^ 32 + 0x100)) =
      some [some 0x44, some 0x33, some 0x22, some 0x11] := by decide

/-- Memory as M1 leaves it. -/
def storedBytes : List Host.Cell :=
  [(0x80000000 * 2 ^ 32 + 0x100, 0x44), (0x80000000 * 2 ^ 32 + 0x101, 0x33), (0x80000000 * 2 ^ 32 + 0x102, 0x22),
    (0x80000000 * 2 ^ 32 + 0x103, 0x11)]

/-- M2 -/
theorem test_stb_one_byte :
    seen (run1 { machine 0x100 0 [(1, 0x100), (3, 0x1AB)] with mem := storedBytes } 0xB131)
      (fun t => bytesAt t (0x80000000 * 2 ^ 32 + 0x100)) =
      some [some 0x44, some 0xAB, some 0x22, some 0x11] := by decide

/-- As M4, on the word of M1. -/
theorem test_ld_shifts :
    seen (run1 { machine 0x100 0 [(1, 0x100)] with mem := storedBytes } 0xD151) (fun t => t.readReg 5) =
      some 0x00112233 := by decide

/-- M7 -/
theorem test_st_misaligned :
    faultOf (run1 (machine 0x100 0 [(1, 0x100), (2, 5)]) 0xF121) = some (.misalignedStore ⟨0x80000000, 0x101⟩) := by decide

/-- M10's address, which wraps, on a word nothing has written. -/
theorem test_ld_unwritten :
    faultOf (run1 (machine 0x100 0 [(1, 0x108), (2, 0xFFFFFFFC)]) 0xC142) =
      some (.unwrittenRead (.data ⟨0x80000000, 0x104⟩)) := by decide

/-- M12 -/
theorem test_st_to_another_task :
    faultOf (run1 (machine 0x100 0 [(1, 0x80010005), (2, 0x10)]) 0xE142) =
      some (.accessErrorStore ⟨0x80010005, 0x10⟩) := by decide

/-- M13 -/
theorem test_ld_from_another_task :
    faultOf (run1 (machine 0x100 0 [(1, 0x80010005), (2, 0x10)]) 0xC142) =
      some (.accessErrorLoad ⟨0x80010005, 0x10⟩) := by decide

/-- M14: the access is allowed, and only the unwritten word stops the load. -/
theorem test_ld_from_a_read_only_task :
    faultOf (run1 (machine 0x100 0 [(1, 0xA0008005), (2, 0x10)]) 0xC142) =
      some (.unwrittenRead (.data ⟨0xA0008005, 0x10⟩)) := by decide

/-! ## JUMPL and the extended instructions -/

/-- J1 -/
theorem test_jumpl :
    seen (run1 (machine 0x208 0 [(5, 0x300)]) 0x85EF) (fun t => (t.readReg 14, t.pc)) = some (0x208, 0x300) := by decide

/-- J4: both operands are read before the link is written. -/
theorem test_jumpl_link_is_the_base :
    seen (run1 (machine 0x208 0 [(3, 0x10), (5, 0x300)]) 0x8553) (fun t => (t.readReg 5, t.pc)) = some (0x208, 0x310) := by
  decide

/-- J3, with PC_VISIBLE = next. -/
theorem test_jumpl_immediate_next :
    seen (step ({ machine 0x400 0 [] with cfg := { Config.default with pcVisible := .next } }.withFetchWord 48 0x03009FEF))
      (fun t => (t.readReg 14, t.pc)) = some (0x406, 0x300) := by decide

/-- J6 -/
theorem test_send_refused : refusalOf (run1 (machine 0x208 0 [(5, 0x40000300)]) 0x85EF) = some .sendUnmodelled := by decide

/-- X5 -/
theorem test_rtn_refused : refusalOf (run1 (machine 0x100 0 []) 0x9125) = some .rtnUnmodelled := by decide

/-- D22 -/
theorem test_unassigned_refused : refusalOf (run1 (machine 0x100 0 []) 0x9127) = some .reservedExtended := by decide

/-- X4 -/
theorem test_fadd :
    seen (run1 (machine 0x100 0 [(1, 3), (2, 4)]) 0x9120) (fun t => (nzcv t, t.pc, t.draws)) =
      some (0, 0x102, 1) := by decide

/-- D21 with a meaning for the code. -/
theorem test_ext16 :
    seen (run2 (machine 0x100 0 [(1, 3), (2, 4)]) 0x1234912E) (fun t => (nzcv t, t.pc, t.draws)) =
      some (0, 0x104, 1) := by decide

/-- BankA = 2, BankB = 3 and SP. -/
def banked (sp : BitVec 14) : State :=
  withRegs (machine 0x100 0 []) 0x100 { Status.reset with bankA := 2, bankB := 3 } { Stack.reset true with sp := sp }

/-- X1 -/
theorem test_stk_down :
    seen (run1 (banked 0x28) 0x9054) (fun t => (t.stack.sp, t.phys 5, t.phys 0, (banked 0x28).phys 0)) =
      some (0x23, 40, 35, 40) := by decide

/-- X2 -/
theorem test_stk_up :
    seen (run1 (banked 0x28) 0x9404) (fun t => (t.stack.sp, t.phys 0, t.phys 4, t.phys 15)) =
      some (0x2C, 44, 48, 59) := by decide

/-- X3, with no StkReload. -/
theorem test_stk_across_refused :
    refusalOf (run1 { banked 0x2E with cfg := { Config.default with stkReload := .absent } } 0x9404) =
      some .stkAcrossBlock := by decide

/-- RM3 -/
theorem test_mapping :
    (physOf 2 7 15 0, physOf 2 7 15 1, physOf 2 7 15 15) = (47, 112, 126) := by decide

/-! ## The step -/

/-- T2: tasks 12 and 3. -/
theorem test_hardware_task_first :
    ((((State.reset.setReady ⟨15, false⟩).setReady ⟨12, true⟩).setReady ⟨3, true⟩).schedule.map State.cur) = some 12 := by
  decide

/-- T5: no switch directly after a cascade. -/
theorem test_no_switch_after_a_cascade :
    (({ (State.reset.setReady ⟨12, true⟩).setReady ⟨3, true⟩ with cascValid := true, cur := 3 } : State).schedule.map
      State.cur) = some 3 := by decide

/-- T6: with no task ready nothing runs. -/
theorem test_no_task_ready : (State.reset.setReady ⟨15, false⟩).schedule = none := by rfl

/-- R252 -/
theorem test_mode_refused :
    refusalOf (step (withRegs (machine 0x100 0 []) 0x100 Status.reset { Stack.reset true with p := true })) =
      some .modeUnmodelled := by decide

/-- U20 -/
theorem test_bank_out_of_range :
    faultOf (step { banked 0 with cfg := { Config.default with regBlocks := 3 } }) = some .bankOutOfRange := by decide

/-- Nothing is in the program text at reset. -/
theorem test_reset_fetches_nothing : faultOf (step State.reset) = some (.unwrittenRead (.code 0)) := by decide

/-- R21, R25: the layout of STATUS and STACK. -/
theorem test_layout :
    (statusOfWord 0x80010016).skip = 0x80 ∧ (statusOfWord 0x80010016).bankA = 4 ∧ (statusOfWord 0x80010016).bankB = 1 ∧
      (statusOfWord 0x80010016).z = true ∧ (statusOfWord 0x80010016).c = true ∧
      (stackOfWord 0x8001C003).task = 3 ∧ (stackOfWord 0x8001C003).r = true ∧ (stackOfWord 0x8001C003).sp = 3 := by
  decide

/-! ## Witnesses: states and operands that meet the hypotheses of the statements -/

/-- A state with a word at the offset 0x100 of task 0's byte vector, R1 = 0x100. -/
def loaded : State := { machine 0x100 0 [(1, 0x100)] with mem := storedBytes }

/-- A state with an incoming cascade. -/
def cascaded : State := { machine 0x100 0 [(15, 7)] with cascValid := true }

/-- A state in which only the three bytes 0x104 to 0x106 of task 0's byte vector exist. -/
def threeBytes : State := { loaded with cfg := { Config.default with valid := .only [⟨0x80000000, 0x104, 3⟩] } }

/-- That a byte exists is a question with an answer. -/
theorem byteIsThere_iff (s : State) (obj : Word) (off : Nat) :
    ByteIsThere s obj off ↔ byteExists s.cfg.valid obj off = true := by
  unfold ByteIsThere byteExists
  cases s.cfg.valid <;> simp [regionHolds, and_assoc]

/-- All MATH, SHIFT and LOGIC statements (`FormsDecode`, `FormsRun`) and `FormatMDecodes`: the bound of the short immediate, and both ways the
K forms complete. -/
theorem witness_forms :
    (13#4).toNat ≤ 13 ∧ (machine 0x100 0 []).cascValid = false ∧
      ({ cascaded with cfg := { Config.default with cascadeChain := .allow } } : State).cfg.cascadeChain = .allow := by
  decide

theorem witness_CascadeChainIsRefused :
    IsCascade (.kmov 1 2) ∧ cascaded.cascValid = true ∧ cascaded.cfg.cascadeChain = .refuse :=
  ⟨⟨_, _, rfl, by decide, by decide⟩, rfl, rfl⟩

theorem witness_IncompatibleFollowerLosesTheCascade :
    ¬ FormatA (.skip ⟨.always, true⟩ 0) ∧ ∃ t, exec (.skip ⟨.always, true⟩ 0) cascaded = .next t := by
  refine ⟨?_, _, rfl⟩
  rintro ⟨w, rest, h, hw⟩
  simp only [encode, List.cons.injEq] at h
  rw [← h.1] at hw
  revert hw
  decide

theorem witness_CascadeFeedsTheDestOperand : (machine 0x100 0 [(1, 5)]).cascValid = false := rfl

theorem witness_CompareThenCondition : (machine 0x100 0 [(1, 0x80000000), (2, 1)]).cascValid = false := rfl

theorem witness_SkipOrsItsBits :
    Condition ⟨.lessOrEqual, true⟩ (machine 0x100 0b0100 []).status ∧
      ¬ Condition ⟨.lessOrEqual, true⟩ (machine 0x100 0b1001 []).status := by
  unfold Condition
  decide

theorem witness_BranchAddsItsOffset :
    Condition ⟨.lowerOrSame, false⟩ (machine 0x100 0b0010 []).status ∧
      ¬ Condition ⟨.lowerOrSame, false⟩ (machine 0x100 0b0110 []).status := by
  unfold Condition
  decide

/-- A base of the first kind; the highest byte of the word, so that k = 3. -/
theorem witness_LoadDeliversTheShiftedWord :
    Address loaded (loaded.readReg 1) 3 ⟨0x80000000, 0x103⟩ ∧ Own loaded (loaded.readReg 1) ∧
      AllExist loaded 0x80000000 (0x103 / 4 * 4) 4 ∧
      loaded.readByte (byteKey 0x80000000 0x100) = some 0x44 ∧ loaded.readByte (byteKey 0x80000000 0x101) = some 0x33 ∧
      loaded.readByte (byteKey 0x80000000 0x102) = some 0x22 ∧ loaded.readByte (byteKey 0x80000000 0x103) = some 0x11 := by
  simp only [Address, Own, AllExist, byteIsThere_iff, ObjectAddress]
  decide

/-- The other way a load is allowed: the read-only bit, in an object of another task; and k = 0 in big byte order. -/
theorem witness_LoadDeliversTheShiftedWord_readOnly :
    ¬ Own loaded 0xA0008005 ∧ (0xA0008005 : Word).getLsbD 29 = true ∧
      Address loaded 0xA0008005 0x100 ⟨0xA0008005, 0x100⟩ ∧ (0x100 : Word).toNat % 4 = 0 ∧
      ({ loaded with cfg := { Config.default with byteOrder := .big } } : State).cfg.byteOrder = .big := by
  unfold Address Own ObjectAddress
  decide

theorem witness_StoreWritesItsFourBytes :
    Address loaded (loaded.readReg 1) 0xFFFFFEFC ⟨0x80000000, 0xFFFFFFFC⟩ ∧ Own loaded (loaded.readReg 1) ∧
      (0xFFFFFFFC : Word).toNat % 4 = 0 ∧ AllExist loaded 0x80000000 0xFFFFFFFC 4 := by
  simp only [Address, Own, AllExist, byteIsThere_iff, ObjectAddress]
  decide

theorem witness_StoreByteWritesOneByte :
    Address threeBytes (threeBytes.readReg 1) 6 ⟨0x80000000, 0x106⟩ ∧ Own threeBytes (threeBytes.readReg 1) ∧
      AllExist threeBytes 0x80000000 0x106 1 := by
  simp only [Address, Own, AllExist, byteIsThere_iff, ObjectAddress]
  decide

/-- An object of another task with and without the read-only bit (clauses one of each), a word of which one byte does not
exist (clauses two), an unwritten word (clause three of LD), a misaligned address (clause two of ST). -/
theorem witness_MemoryChecksInOrder :
    (¬ Own loaded 0x80010005 ∧ (0x80010005 : Word).getLsbD 29 = false ∧
      Address loaded 0x80010005 0x10 ⟨0x80010005, 0x10⟩) ∧
    (Own threeBytes (threeBytes.readReg 1) ∧ Address threeBytes (threeBytes.readReg 1) 4 ⟨0x80000000, 0x104⟩ ∧
      ¬ AllExist threeBytes 0x80000000 (0x104 / 4 * 4) 4 ∧ (0x104 : Word).toNat % 4 = 0) ∧
    (Address threeBytes (threeBytes.readReg 1) 7 ⟨0x80000000, 0x107⟩ ∧ ¬ AllExist threeBytes 0x80000000 0x107 1) ∧
    (AllExist loaded 0x80000000 (0x104 / 4 * 4) 4 ∧ loaded.readByte (byteKey 0x80000000 (0x104 / 4 * 4 + 0)) = none) ∧
    (Address loaded (loaded.readReg 1) 1 ⟨0x80000000, 0x101⟩ ∧ (0x101 : Word).toNat % 4 ≠ 0) := by
  simp only [Address, Own, AllExist, byteIsThere_iff, ObjectAddress]
  and_intros <;> decide

theorem witness_StoredWordLoadsBack :
    (∃ t, exec (.st 1 2 15) loaded = .next t) ∧ ∃ t, exec (.stI 1 2 (.short 4)) loaded = .next t :=
  ⟨⟨_, rfl⟩, _, rfl⟩

theorem witness_JumplLinksAndJumps :
    ¬ ObjectAddress 0x3FFFFFFF ∧ ¬ ObjectAddress 0xC0000000 ∧ Config.default.pcVisible = .current ∧
      ({ Config.default with pcVisible := .next } : Config).pcVisible = .next := by
  unfold ObjectAddress
  decide

theorem witness_ObjectOperandMakesASend :
    ObjectAddress ((machine 0x100 0 [(5, 0x40000000)]).readReg 5) ∧
      ObjectAddress (immediate .lowFirst (.long 0xFFFF 0xBFFF)) := by
  unfold ObjectAddress
  decide

theorem witness_CoprocessorResultGoesToDest :
    (∀ c ∈ [(0 : BitVec 4), 1, 2, 3, 12, 13], c ∈ State.reset.cfg.coproc) ∧ State.reset.cfg.coproc16 = .everyCode ∧
      ∃ cs, ({ Config.default with coproc16 := .only [0x1234] } : Config).coproc16 = .only cs ∧ 0x1234 ∈ cs :=
  ⟨by decide, rfl, [0x1234], rfl, by decide⟩

theorem witness_ExtendedWithoutMeaningIsRefused :
    (∀ c ∈ [(1 : BitVec 4), 2, 3, 12, 13], c ∉ ({ Config.default with coproc := [0] } : Config).coproc) ∧
      (0 : BitVec 4) ∉ ({ Config.default with coproc := [] } : Config).coproc ∧
      ({ Config.default with coproc16 := .noCode } : Config).coproc16 = .noCode ∧
      ∃ cs, ({ Config.default with coproc16 := .only [0x1234] } : Config).coproc16 = .only cs ∧ 0x1235 ∉ cs :=
  ⟨by decide, by decide, rfl, [0x1234], rfl, by decide⟩

/-- Up to the last slot of the block; the names 0 and 7. -/
theorem witness_StkRenamesWithinABlock :
    slidSp (banked 0x28) 7 0 / 16 = (banked 0x28).stack.sp.toNat / 16 ∧ slidSp (banked 0x28) 7 0 = 0x2F ∧
      (((0#4).toNat : Int) + (7#4).toNat - (0#4).toNat = (7#4).toNat) := by
  decide

/-- One slot further up, and one below the block; with and without a StkReload. -/
theorem witness_StkAcrossABlock :
    slidSp (banked 0x28) 8 0 / 16 ≠ (banked 0x28).stack.sp.toNat / 16 ∧ (0#4).toNat < (8#4).toNat ∧
      slidSp (banked 0x20) 0 1 / 16 ≠ (banked 0x20).stack.sp.toNat / 16 ∧ (0#4).toNat < (1#4).toNat ∧
      (banked 0x28).cfg.stkReload = .supplied ∧
      ({ Config.default with stkReload := .absent } : Config).stkReload = .absent := by
  decide

/-- The last name in BankA and the first in BankB. -/
theorem witness_VisibleRegistersAreSixteenWords :
    (banked 0x28).stack.sp.toNat % 16 + (7#4).toNat < 16 ∧ 16 ≤ (banked 0x28).stack.sp.toNat % 16 + (8#4).toNat ∧
      (7#4) ≠ (15#4) := by
  decide

theorem witness_DecodeOfEncodeIsTheInstruction :
    (Instr.knaiI 15 (.short 13)).wellFormed = true ∧ (Instr.stI 15 15 (.long 0xFFFF 0xFFFF)).wellFormed = true := by
  decide

theorem witness_EncodeOfDecodeIsTheWords :
    decode [0x9FEF, 0x0300, 0x0000, 0x1F00] = .ok (.jumplI 15 14 0x0300 0x0000, [0x1F00]) := by rfl

/-- The fields 13, 14 and 15, and a SKIP with them. -/
theorem witness_EveryFirstWordIsAnInstruction :
    ((0x341D#16).toNat % 16 ≤ 13 ∧ (0x241F#16).getLsbD 12 = false ∧ (0x1F0F#16).toNat / 2 ^ 13 = 0) ∧
    ((0x341E#16).toNat / 2 ^ 13 ≠ 0 ∧ (0x341E#16).getLsbD 12 = true ∧ (0x341E#16).toNat % 16 = 14) ∧
    ((0xFFFF#16).toNat / 2 ^ 13 ≠ 0 ∧ (0xFFFF#16).getLsbD 12 = true ∧ (0xFFFF#16).toNat % 16 = 15) := by
  decide

/-- A six byte instruction placed at the top of the program text, so that its extension words are at 0 and 2. -/
def placed : State := (machine 0x0FFFFFFE 0 [(1, 1)]).withFetchWord 48 0x12345678341F

theorem witness_StepRunsTheDecodedInstruction :
    Runs placed placed ∧ CanFetch placed ∧ placed.status.skip.getLsbD 7 = false ∧
      textWord placed placed.pc.toNat = some 0x341F ∧ textWord placed (placed.pc.toNat + 2) = some 0x5678 ∧
      textWord placed (placed.pc.toNat + 4) = some 0x1234 ∧
      decode [0x341F, 0x5678, 0x1234] = .ok (.addI 1 (.long 0x5678 0x1234), []) := by
  refine ⟨by unfold Runs; rfl, by unfold CanFetch; decide, by decide, by decide, by decide, by decide, by rfl⟩

/-- The same text at an instruction to be skipped. -/
def skipped : State :=
  withRegs ((machine 0x100 0 []).withFetchWord 48 0x12345678341F) 0x100 { Status.reset with skip := 0x80 } (Stack.reset true)

theorem witness_SkippedInstructionIsANoop :
    Runs skipped skipped ∧ CanFetch skipped ∧ skipped.status.skip.getLsbD 7 = true ∧
      textWord skipped skipped.pc.toNat = some 0x341F := by
  refine ⟨by unfold Runs; rfl, by unfold CanFetch; decide, by decide, by decide⟩

/-- An odd PC; each mode; a bank number equal to the number of blocks; a missing first word; a missing second extension
word. -/
theorem witness_FetchChecksInOrder :
    (Runs (machine 0x101 0 []) (machine 0x101 0 []) ∧ (machine 0x101 0 []).pc.toNat % 2 = 1) ∧
    (∀ p b, (p = true ∨ b = true) →
      Runs (withRegs State.reset 0 Status.reset { Stack.reset true with p := p, b := b })
        (withRegs State.reset 0 Status.reset { Stack.reset true with p := p, b := b })) ∧
    ({ Config.default with regBlocks := 3 } : Config).regBlocks.val ≤ (banked 0).status.bankB.toNat ∧
    (CanFetch (machine 0x100 0 []) ∧ textWord (machine 0x100 0 []) (0x100 + 2 * 0) = none) ∧
    (let u : State := { machine 0x100 0 [] with imem := [(0x100, 0x341F), (0x102, 0x5678)] };
      CanFetch u ∧ (∀ j, j < 2 → textWord u (u.pc.toNat + 2 * j) ≠ none) ∧ textWord u (u.pc.toNat + 2 * 2) = none ∧
        u.status.skip.getLsbD 7 = false ∧ ∃ w, textWord u u.pc.toNat = some w ∧ 2 * 2 < lengthOf w) := by
  refine ⟨⟨by unfold Runs; rfl, by decide⟩, fun p b _ => by unfold Runs; rfl, by decide,
    ⟨by unfold CanFetch; decide, by decide⟩, by unfold CanFetch; decide, by decide, by decide, by decide, 0x341F,
    by decide, by decide⟩

/-- Task 8 alone, and task 15. -/
theorem witness_HighestHardwareTaskRuns :
    (let s := (State.reset.setReady ⟨15, false⟩).setReady ⟨8, true⟩;
      s.cascValid = false ∧ 8 ≤ (8 : TaskNo).val ∧ s.arrive.tasks[(8 : TaskNo)].stack.r = true ∧
        ∀ j : TaskNo, 8 < j → s.arrive.tasks[j].stack.r = false) ∧
    State.reset.arrive.tasks[(15 : TaskNo)].stack.r = true ∧ ∀ j : TaskNo, ¬ 15 < j := by
  decide

/-- Task 7 alone at a BRANCH to itself, after `n` steps. -/
def spinning (n : Nat) : State :=
  { (State.reset.setReady ⟨15, false⟩).setReady ⟨7, true⟩ with imem := [(0, 0x1F00)], cur := 7, draws := n }

theorem spinning_schedule (n : Nat) : (spinning n).arrive.schedule = some (spinning (n + 1)) := by
  have hr : (spinning n).softwareReady = [7] := by
    show (spinning 0).softwareReady = [7]
    decide
  have hh : hardwareTasks.find? (spinning n).ready = none := by
    show hardwareTasks.find? (spinning 0).ready = none
    decide
  have ht : (spinning n).takeTurn 7 = spinning (n + 1) := by
    have h : ∀ v, ((spinning n).turns.set 7 v).set 7 none = (spinning n).turns := fun v => rfl
    simp only [State.takeTurn, hr, State.keepTurns]
    exact congrArg (fun v => ({ spinning (n + 1) with turns := v } : State)) (h _)
  show (spinning n).schedule = _
  have hc : (spinning n).cascValid = false := rfl
  simp only [State.schedule, hc, hh, hr, State.earliest, ht]
  rfl

theorem spinning_issue (n : Nat) :
    issueRunning (spinning n) = .run (.branch ⟨.always, true⟩ 0) (spinning n).shiftSkip := by
  have h : (spinning 0).pc.getLsbD 0 = false ∧ ((spinning 0).stack.p || (spinning 0).stack.b) = false ∧
      (spinning 0).banksExist = true ∧ (spinning 0).fetchWord (spinning 0).pcAddr = some 0x1F00 ∧
      (spinning 0).skip0 = false ∧
      decode ((spinning 0).fetchWords 3 (spinning 0).pcAddr) = .ok (.branch ⟨.always, true⟩ 0, []) := by
    refine ⟨?_, ?_, ?_, ?_, ?_, ?_⟩ <;> decide
  change (spinning n).pc.getLsbD 0 = false ∧ ((spinning n).stack.p || (spinning n).stack.b) = false ∧
    (spinning n).banksExist = true ∧ (spinning n).fetchWord (spinning n).pcAddr = some 0x1F00 ∧
    (spinning n).skip0 = false ∧
    decode ((spinning n).fetchWords 3 (spinning n).pcAddr) = .ok (.branch ⟨.always, true⟩ 0, []) at h
  simp only [issueRunning, h.1, h.2.1, h.2.2.1, h.2.2.2.1, h.2.2.2.2.1, h.2.2.2.2.2]
  rfl

theorem spinning_step (n : Nat) : step (spinning n) = .next (spinning (n + 1)) := by
  have h : ((((spinning 0).shiftSkip.setPcAddr 0).setSkip 0).setCasc false).tasks = (spinning 0).tasks := by decide
  rw [step_of_schedule (spinning_schedule n), spinning_issue]
  exact congrArg (fun v => Host.Outcome.next ({ spinning (n + 1) with tasks := v } : State)) h

/-- The run in which task 7 stays ready and is chosen at every step. -/
theorem witness_SoftwareTaskOrIdle_fair :
    (7 : TaskNo).val < 8 ∧ (∀ n, step (spinning n) = .next (spinning (n + 1))) ∧ (∀ n, (spinning n).staysReady 7) ∧
      ∀ n, ∃ m, n ≤ m ∧ (spinning m).picksSoftware := by
  refine ⟨by decide, spinning_step, fun n => ⟨rfl, fun m hm => by cases hm⟩, fun n => ⟨n, Nat.le_refl n, rfl, ?_⟩⟩
  show ∀ k : TaskNo, 8 ≤ k.val → (spinning 0).arrive.tasks[k].stack.r = false
  decide

/-- Task 7 alone, and no task. -/
theorem witness_SoftwareTaskOrIdle :
    (let s := (State.reset.setReady ⟨15, false⟩).setReady ⟨7, true⟩;
      s.cascValid = false ∧ (∀ k : TaskNo, 8 ≤ k.val → s.arrive.tasks[k].stack.r = false) ∧
        s.arrive.tasks[(7 : TaskNo)].stack.r = true) ∧
    ∀ j : TaskNo, (State.reset.setReady ⟨15, false⟩).arrive.tasks[j].stack.r = false := by
  decide

theorem witness_NoTaskSwitchAfterACascade :
    IsCascade (.kadd 1 2) ∧ ∃ t, exec (.kadd 1 2) (machine 0x100 0 []) = .next t :=
  ⟨⟨_, _, rfl, by decide, by decide⟩, _, rfl⟩

/-- A state that meets the invariant and steps, so the witness of every statement about a step. -/
theorem witness_StepKeepsTheInvariant : placed.Inv ∧ ∃ t, step placed = .next t :=
  ⟨by unfold State.Inv; decide, _, rfl⟩

theorem witness_StepWritesNoProgramTextOrParameter : ∃ t, step placed = .next t := ⟨_, rfl⟩

theorem witness_OnlyTheRunningTaskChanges : ∃ t, step placed = .next t ∧ (3 : TaskNo) ≠ t.cur := ⟨_, rfl, by decide⟩

theorem witness_OnlyStkMovesTheMapping :
    (∃ t, exec (.jumpl 1 2 3) placed = .next t) ∧ ∀ src d, Instr.jumpl 1 2 3 ≠ .stk src d :=
  ⟨⟨_, rfl⟩, fun _ _ h => by cases h⟩

theorem witness_OnlyFormatAWritesFlags :
    ¬ FormatA (.skip ⟨.always, true⟩ 0) ∧ ∃ t, exec (.skip ⟨.always, true⟩ 0) placed = .next t :=
  ⟨witness_IncompatibleFollowerLosesTheCascade.1, _, rfl⟩

theorem witness_OnlyStoresWriteMemory :
    (∃ t, exec (.mov 1 2) placed = .next t) ∧
      (∀ b r o, Instr.mov 1 2 ≠ .st b r o ∧ Instr.mov 1 2 ≠ .stb b r o) ∧
      ∀ b r m, Instr.mov 1 2 ≠ .stI b r m ∧ Instr.mov 1 2 ≠ .stbI b r m :=
  ⟨⟨_, rfl⟩, fun _ _ _ => ⟨fun h => (by cases h), fun h => (by cases h)⟩,
    fun _ _ _ => ⟨fun h => (by cases h), fun h => (by cases h)⟩⟩

theorem witness_reset_inv : State.reset.Inv := by
  unfold State.Inv
  decide

end Sys2Proof.Tests
end

section
/-! SUPPORT. The invariant of the memories (10_state.md rule R13, 20_memory.md rules R40, R41): every effect an
instruction can have keeps it, and so does every step. -/

namespace Sys2Proof.Machine

variable {s t : State}

/-- The invariant speaks of the three memories only. -/
theorem State.Inv.congr (h : s.Inv) (hm : t.mem = s.mem) (hr : t.regMem = s.regMem) (hi : t.imem = s.imem) : t.Inv := by
  unfold State.Inv
  rw [hm, hr, hi]
  exact h

theorem regMemInRange_writeReg (n : Reg) (v : Word) (h : regMemInRange s.regMem = true) :
    regMemInRange (s.writeReg n v).regMem = true := by
  unfold regMemInRange at h ⊢
  rw [State.writeReg_regMem, State.writePhys_regMem]
  split
  · exact all_cellErase _ _ _ h
  · exact all_cellWrite _ _ h (decide_eq_true (physOf_lt ..))

/-- An aligned word does not pass the end of its object, so none of its bytes leaves the address space. -/
theorem DataAddr.key_add_lt (a : DataAddr) (ha : a.low2 = 0) {i : Nat} (hi : i < 4) : a.key + i < 2 ^ 64 := by
  have hlow : a.off.toNat % 4 = 0 := by
    simpa [DataAddr.low2, BitVec.extractLsb'_toNat] using congrArg BitVec.toNat ha
  have hobj := a.obj.isLt
  have hoff := a.off.isLt
  unfold DataAddr.key
  omega

theorem DataAddr.key_lt (a : DataAddr) : a.key < 2 ^ 64 := by
  have hobj := a.obj.isLt
  have hoff := a.off.isLt
  unfold DataAddr.key
  omega

theorem memInRange_writeByte {k : Nat} (v : Byte) (hk : k < 2 ^ 64) (h : memInRange s.mem = true) :
    memInRange (s.writeByte k v).mem = true :=
  all_cellWrite _ _ h (decide_eq_true hk)

theorem memInRange_memWrite4 (a : DataAddr) (v : Word) (ha : a.low2 = 0) (h : memInRange s.mem = true) :
    memInRange (s.memWrite4 a v).mem = true := by
  have hk := fun i (hi : i < 4) => a.key_add_lt ha hi
  unfold State.memWrite4
  exact memInRange_writeByte _ (hk 3 (by decide)) (memInRange_writeByte _ (hk 2 (by decide))
    (memInRange_writeByte _ (hk 1 (by decide)) (memInRange_writeByte _ a.key_lt h)))

/-- What an instruction may do to the memories keeps them canonical and in range. -/
theorem Effect.inv (h : Effect s t) (hs : s.Inv) : t.Inv := by
  obtain ⟨hmem, hreg, htext, hmemR, hregR, htextR⟩ := hs
  have hreg' : regMemWf t.regMem = true ∧ regMemInRange t.regMem = true := by
    rcases h.regMem with e | ⟨n, v, e⟩ <;> rw [e]
    · exact ⟨hreg, hregR⟩
    · exact ⟨regMemWf_writePhys s _ v hreg, regMemInRange_writeReg n v hregR⟩
  have hmem' : Memory.wf t.mem = true ∧ memInRange t.mem = true := by
    rcases h.mem with e | ⟨a, v, ha, e⟩ | ⟨a, v, e⟩ <;> rw [e]
    · exact ⟨hmem, hmemR⟩
    · exact ⟨Memory.wf_memWrite4 s a v hmem, memInRange_memWrite4 a v ha hmemR⟩
    · exact ⟨Memory.wf_memWrite1 s a v hmem, memInRange_writeByte v a.key_lt hmemR⟩
  exact ⟨hmem'.1, hreg'.1, h.imem ▸ htext, hmem'.2, hreg'.2, h.imem ▸ htextR⟩

theorem State.Inv.arrive (h : s.Inv) : s.arrive.Inv :=
  h.congr s.arrived.mem s.arrived.regMem s.arrived.imem

theorem State.Inv.schedule (h : s.Inv) (ht : s.schedule = some t) : t.Inv := by
  obtain ⟨_, _, _, rfl⟩ := schedule_some ht
  exact h.congr rfl rfl rfl

end Sys2Proof.Machine

namespace Sys2Proof.Proofs

open Sys2Proof.Machine Sys2Proof.Claims

/-- Settles O53: the environment's moves and the scheduler leave the three memories alone, and the effect of the one
instruction keeps the invariant. -/
theorem stepKeepsTheInvariant : Obligations.StepKeepsTheInvariant := by
  intro s t hs h
  rcases step_effect h with ⟨-, rfl⟩ | ⟨u, hu, he⟩
  · exact hs.arrive
  · exact he.inv (hs.arrive.schedule hu)

end Sys2Proof.Proofs
end

section
/-! SUPPORT. The mapping of the visible registers in the spec's arithmetic (10_state.md rule R14). -/

namespace Sys2Proof.Machine

theorem slotOf_eq (sp : BitVec 14) (n : Reg) : slotOf sp n = sp.toNat % 16 + n.toNat := by
  simp [slotOf, BitVec.extractLsb'_toNat]

theorem State.phys_of_bankA (s : State) {n : Reg} (h : s.stack.sp.toNat % 16 + n.toNat < 16) :
    s.phys n = 16 * s.status.bankA.toNat + (s.stack.sp.toNat % 16 + n.toNat) := by
  rw [State.phys, physOf, slotOf_eq, if_pos h]

theorem State.phys_of_bankB (s : State) {n : Reg} (h : 16 ≤ s.stack.sp.toNat % 16 + n.toNat) :
    s.phys n = 16 * s.status.bankB.toNat + (s.stack.sp.toNat % 16 + n.toNat - 16) := by
  rw [State.phys, physOf, slotOf_eq, if_neg (Nat.not_lt.mpr h)]

theorem State.readReg_of_ne_fifteen (s : State) {n : Reg} (h : n ≠ 15) : s.readReg n = s.readPhys (s.phys n) :=
  if_neg h

end Sys2Proof.Machine

namespace Sys2Proof.Proofs

open Sys2Proof.Machine Sys2Proof.Claims

/-- Settles O42: each part is one law of the mapping or of a register write. -/
theorem visibleRegistersAreSixteenWords : Obligations.VisibleRegistersAreSixteenWords := by
  intro s n m v
  exact ⟨s.phys_of_bankA, s.phys_of_bankB, physOf_injective _ _ _, physOf_lt _ _ _ _, s.readReg_fifteen,
    s.readReg_of_ne_fifteen, s.readReg_writeReg_fifteen v n, readPhys_writePhys_same s _ v⟩

end Sys2Proof.Proofs
end

section
/-! SUPPORT. The layouts of STATUS and STACK as 32 bit words (10_state.md rules R21, R25): the word as a number, from
which every field is read back by division. -/

namespace Sys2Proof.Machine

open Sys2Proof.Claims (asNat)

/-- A concatenation as a number. -/
theorem toNat_append_eq_add {m n : Nat} (x : BitVec m) (y : BitVec n) : (x ++ y).toNat = x.toNat * 2 ^ n + y.toNat := by
  rw [BitVec.toNat_append, ← Nat.shiftLeft_add_eq_or_of_lt y.isLt, Nat.shiftLeft_eq]

theorem toNat_ofBool_eq_asNat (b : Bool) : (BitVec.ofBool b).toNat = asNat b := by
  cases b <;> rfl

theorem asNat_lt_two (b : Bool) : asNat b < 2 := by
  cases b <;> decide

/-- A bit of a word whose number has a flag as that binary digit. -/
theorem getLsbD_eq_of_digit {w : Nat} {x : BitVec w} {i : Nat} {b : Bool} (h : x.toNat / 2 ^ i % 2 = asNat b) :
    x.getLsbD i = b := by
  rw [← BitVec.testBit_toNat, Nat.testBit_eq_decide_div_mod_eq, h]
  cases b <;> rfl

/-- A field of a word whose number has the field's number between two powers of two. -/
theorem extractLsb'_eq_of_digits {w n : Nat} {x : BitVec w} {i : Nat} {y : BitVec n}
    (h : x.toNat / 2 ^ i % 2 ^ n = y.toNat) : x.extractLsb' i n = y := by
  apply BitVec.eq_of_toNat_eq
  rw [BitVec.extractLsb'_toNat, Nat.shiftRight_eq_div_pow, h]

theorem Status.toNat_toWord (st : Status) : st.toWord.toNat =
    st.skip.toNat * 2 ^ 24 + st.bankA.toNat * 2 ^ 14 + st.bankB.toNat * 2 ^ 4 + asNat st.n * 8 + asNat st.z * 4 +
      asNat st.c * 2 + asNat st.v := by
  simp only [Status.toWord, toNat_append_eq_add, toNat_ofBool_eq_asNat]
  omega

theorem Stack.toNat_toWord (st : Stack) : st.toWord.toNat =
    asNat st.p * 2 ^ 31 + asNat st.b * 2 ^ 30 + st.task.toNat * 2 ^ 15 + asNat st.r * 2 ^ 14 + st.sp.toNat := by
  simp only [Stack.toWord, toNat_append_eq_add, toNat_ofBool_eq_asNat]
  omega

theorem statusOfWord_toWord (st : Status) : statusOfWord st.toWord = st := by
  have hword := st.toNat_toWord
  have hskip := st.skip.isLt
  have hbankA := st.bankA.isLt
  have hbankB := st.bankB.isLt
  have hn := asNat_lt_two st.n
  have hz := asNat_lt_two st.z
  have hc := asNat_lt_two st.c
  have hv := asNat_lt_two st.v
  show statusOfWord st.toWord = ⟨st.skip, st.bankA, st.bankB, st.n, st.z, st.c, st.v⟩
  rw [statusOfWord, Status.mk.injEq]
  refine ⟨extractLsb'_eq_of_digits ?_, extractLsb'_eq_of_digits ?_, extractLsb'_eq_of_digits ?_,
    getLsbD_eq_of_digit ?_, getLsbD_eq_of_digit ?_, getLsbD_eq_of_digit ?_, getLsbD_eq_of_digit ?_⟩ <;> omega

theorem stackOfWord_toWord (st : Stack) : stackOfWord st.toWord = st := by
  have hword := st.toNat_toWord
  have hp := asNat_lt_two st.p
  have hb := asNat_lt_two st.b
  have htask := st.task.isLt
  have hr := asNat_lt_two st.r
  have hsp := st.sp.isLt
  show stackOfWord st.toWord = ⟨st.p, st.b, st.task, st.r, st.sp⟩
  rw [stackOfWord, Stack.mk.injEq]
  refine ⟨getLsbD_eq_of_digit ?_, getLsbD_eq_of_digit ?_, extractLsb'_eq_of_digits ?_, getLsbD_eq_of_digit ?_,
    extractLsb'_eq_of_digits ?_⟩ <;> omega

end Sys2Proof.Machine

namespace Sys2Proof.Proofs

open Sys2Proof.Machine Sys2Proof.Claims

/-- Settles O60: the number of each word, and from it each field. -/
theorem statusAndStackLayout : Obligations.StatusAndStackLayout :=
  ⟨fun st => ⟨st.toNat_toWord, statusOfWord_toWord st⟩, fun st => ⟨st.toNat_toWord, stackOfWord_toWord st⟩⟩

end Sys2Proof.Proofs
end

section
/-! SUPPORT. What an instruction writes of STATUS, STACK and data memory, by its kind: one case analysis over the shared
operations, from which the frames of the kinds follow. -/

namespace Sys2Proof.Machine

open Sys2Proof.Claims (FormatA)

variable {s t : State} {i : Instr}

/-- A first word of the MATH, SHIFT or LOGIC groups in the arithmetic of rule R73. -/
theorem AluHead.formatA {k : Bool} (h : AluHead i k) : FormatA i := by
  obtain ⟨g, f, n1, n0, rest, he, hg, -⟩ := h
  refine ⟨_, rest, he, ?_⟩
  have hf := f.isLt
  have h1 := n1.isLt
  have h0 := n0.isLt
  rw [toNat_wordOf]
  omega

/-- The kinds of instructions and what each writes of STATUS, STACK and data memory. -/
inductive Writes (s t : State) : Instr → Prop
  /-- MATH, SHIFT, LOGIC: the four flags -/
  | flags (i : Instr) (format : FormatA i) (n z c v : Bool)
      (status : t.status = { s.status with n := n, z := z, c := c, v := v })
      (stack : t.stack = s.stack) (mem : t.mem = s.mem) : Writes s t i
  /-- SKIP, BRANCH, LD, JUMPL, coprocessor calls: at most the skip bits -/
  | skips (i : Instr) (m : BitVec 8) (status : t.status = { s.status with skip := m })
      (stack : t.stack = s.stack) (mem : t.mem = s.mem) : Writes s t i
  /-- ST, STB: data memory -/
  | memory (i : Instr) (form : (∃ b r o, i = .st b r o ∨ i = .stb b r o) ∨ ∃ b r m, i = .stI b r m ∨ i = .stbI b r m)
      (status : t.status = s.status) (stack : t.stack = s.stack) : Writes s t i
  /-- STK: the banks and SP -/
  | mapping (src d : Reg) (ba bb : BitVec 10) (status : t.status = { s.status with bankA := ba, bankB := bb })
      (mem : t.mem = s.mem) : Writes s t (.stk src d)

/-- Each instruction that answers a next state writes what its kind writes. -/
theorem exec_writes (h : exec i s = .next t) : Writes s t i := by
  cases exec_shape i s with
  | math _ op k d src e w =>
    obtain ⟨-, rfl⟩ := mathInstr_next (e ▸ h)
    exact .flags _ w.formatA _ _ _ _ (s.aluRetire_status ..) (s.aluRetire_stack ..) rfl
  | shift _ op k d src e w =>
    obtain ⟨-, rfl⟩ := shiftInstr_next (e ▸ h)
    exact .flags _ w.formatA _ _ _ _ (s.aluRetire_status ..) (s.aluRetire_stack ..) rfl
  | logic _ op k d src e w =>
    obtain ⟨-, rfl⟩ := logicInstr_next (e ▸ h)
    exact .flags _ w.formatA _ _ _ _ (s.aluRetire_status ..) (s.aluRetire_stack ..) rfl
  | load _ b r src e _ =>
    obtain ⟨-, -, _, -, rfl⟩ := load_next (e ▸ h)
    exact .skips _ s.status.skip (by simp) (by simp) rfl
  | store _ b r src e _ form =>
    obtain ⟨-, -, -, rfl⟩ := store_next (e ▸ h)
    refine .memory _ ?_ (by simp) (by simp)
    exact form.imp (fun ⟨o, ho⟩ => ⟨b, r, o, .inl ho⟩) (fun ⟨m, hm⟩ => ⟨b, r, m, .inl hm⟩)
  | storeByte _ b r src e _ form =>
    obtain ⟨-, -, rfl⟩ := storeByte_next (e ▸ h)
    refine .memory _ ?_ (by simp) (by simp)
    exact form.imp (fun ⟨o, ho⟩ => ⟨b, r, o, .inr ho⟩) (fun ⟨m, hm⟩ => ⟨b, r, m, .inr hm⟩)
  | jump _ b l src e _ =>
    obtain ⟨-, -, rfl⟩ := jumpAndLink_next (e ▸ h)
    exact .skips _ 0 (by simp) (by simp) rfl
  | coproc _ code len b d e _ =>
    obtain ⟨-, rfl⟩ := coprocCall_next (e ▸ h)
    exact .skips _ s.status.skip (by simp) (by simp) rfl
  | skip c m _ =>
    cases h
    split
    · exact .skips _ (s.status.skip ||| m) (by simp) (by simp) rfl
    · exact .skips _ s.status.skip (by simp) (by simp) rfl
  | branch c off _ =>
    simp only [exec, execBranch] at h
    split at h <;> cases h
    · exact .skips _ 0 (by simp) (by simp) rfl
    · split
      · exact .skips _ 0 (by simp) (by simp) rfl
      · exact .skips _ s.status.skip (by simp) (by simp) rfl
  | stk src d _ =>
    obtain ⟨ba, bb, rfl | rfl⟩ := execStk_next h
    · exact .mapping src d ba bb (by simp) rfl
    · exact .mapping src d ba bb (by simp) rfl
  | refused _ r e _ =>
    rw [e] at h
    cases h

end Sys2Proof.Machine

namespace Sys2Proof.Proofs

open Sys2Proof.Machine Sys2Proof.Claims

/-- Settles O57: no kind but STK writes a bank or STACK, and the mapping depends on nothing else. -/
theorem onlyStkMovesTheMapping : Obligations.OnlyStkMovesTheMapping := by
  intro s t i h hi
  have hkeep : t.status.bankA = s.status.bankA ∧ t.status.bankB = s.status.bankB ∧ t.stack = s.stack := by
    cases exec_writes h with
    | flags _ _ n z c v status stack _ => exact ⟨by rw [status], by rw [status], stack⟩
    | skips _ m status stack _ => exact ⟨by rw [status], by rw [status], stack⟩
    | memory _ _ status stack => exact ⟨by rw [status], by rw [status], stack⟩
    | mapping src d ba bb _ _ => exact absurd rfl (hi src d)
  obtain ⟨hA, hB, hstack⟩ := hkeep
  exact ⟨hA, hB, hstack, State.phys_congr hA hB (by rw [hstack])⟩

/-- Settles O58: the kind that writes the flags has a first word of format A. -/
theorem onlyFormatAWritesFlags : Obligations.OnlyFormatAWritesFlags := by
  intro s t i h hi
  cases exec_writes h with
  | flags _ format n z c v _ _ _ => exact absurd format hi
  | skips _ m status _ _ => simp [status]
  | memory _ _ status _ => simp [status]
  | mapping src d ba bb status _ => simp [status]

/-- Settles O59: the kind that writes data memory is ST and STB. -/
theorem onlyStoresWriteMemory : Obligations.OnlyStoresWriteMemory := by
  intro s t i h hreg himm a
  have hmem : t.mem = s.mem := by
    cases exec_writes h with
    | flags _ _ n z c v _ _ mem => exact mem
    | skips _ m _ _ mem => exact mem
    | memory _ form _ _ =>
      rcases form with ⟨b, r, o, e | e⟩ | ⟨b, r, m, e | e⟩
      · exact absurd e (hreg b r o).1
      · exact absurd e (hreg b r o).2
      · exact absurd e (himm b r m).1
      · exact absurd e (himm b r m).2
    | mapping src d ba bb _ mem => exact mem
  rw [State.readByte, State.readByte, hmem]

end Sys2Proof.Proofs
end

section
/-! SUPPORT. Whose registers a step changes (10_state.md rule R29, 60_exceptions.md rules R245, R246). -/

namespace Sys2Proof.Machine

variable {s t : State}

theorem Arrived.task_except_ready (h : Arrived s t) (k : TaskNo) :
    t.tasks[k].pc = s.tasks[k].pc ∧ t.tasks[k].status = s.tasks[k].status ∧
      t.tasks[k].stack = { s.tasks[k].stack with r := t.tasks[k].stack.r } := by
  obtain ⟨r, e⟩ := h.tasks k
  rw [e]
  exact ⟨rfl, rfl, rfl⟩

/-- Of any task's STACK an instruction changes only SP. -/
theorem Effect.task_stack (h : Effect s t) (k : TaskNo) :
    ∃ sp, t.tasks[k].stack = { s.tasks[k].stack with sp := sp } := by
  by_cases hk : k = s.cur
  · subst hk
    have hrun : t.stack = t.tasks[s.cur].stack := by simp only [State.stack, State.regs, h.cur]
    exact hrun ▸ h.stack
  · exact ⟨s.tasks[k].stack.sp, by rw [h.others k hk]⟩

theorem schedule_tasks (h : s.schedule = some t) : t.tasks = s.tasks := by
  obtain ⟨_, _, _, rfl⟩ := schedule_some h
  rfl

end Sys2Proof.Machine

namespace Sys2Proof.Proofs

open Sys2Proof.Machine Sys2Proof.Claims

/-- Settles O56: the environment's moves change R bits only, the scheduler no task's registers, and the effect of an
instruction is on the running task, of whose STACK it changes SP only. -/
theorem onlyTheRunningTaskChanges : Obligations.OnlyTheRunningTaskChanges := by
  intro s t k h
  obtain ⟨hpc, hstatus, hstack⟩ := s.arrived.task_except_ready k
  rcases step_effect h with ⟨-, rfl⟩ | ⟨u, hu, he⟩
  · exact ⟨by rw [hstack], by rw [hstack], by rw [hstack], rfl, fun _ => ⟨hpc, hstatus, by rw [hstack]⟩⟩
  · obtain ⟨sp, hsp⟩ := he.task_stack k
    rw [schedule_tasks hu] at hsp
    refine ⟨by rw [hsp, hstack], by rw [hsp, hstack], by rw [hsp, hstack], by rw [hsp], fun hk => ?_⟩
    rw [he.others k (he.cur ▸ hk), schedule_tasks hu]
    exact ⟨hpc, hstatus, by rw [hstack]⟩

end Sys2Proof.Proofs
end

section
/-! SUPPORT. The length of an instruction and what the decoder reads (30_encoding.md rules R76, R77): an instruction
decoded from some words is not longer than they are. -/

namespace Sys2Proof

/-- The length told by the field `w[3:0]` of an instruction with an immediate. -/
def fieldLength (f : BitVec 4) : Nat := if f = 14 then 4 else if f = 15 then 6 else 2

theorem fieldLength_fourteen : fieldLength 14 = 4 := rfl
theorem fieldLength_fifteen : fieldLength 15 = 6 := rfl

/-- Only a word with its `#` bit set, and no BRANCH, has a length other than two bytes. -/
theorem lengthOf_eq (w : Word16) :
    lengthOf w = 2 ∨ nibble w 3 ≠ 1 ∧ w.getLsbD 12 = true ∧ lengthOf w = fieldLength (nibble w 0) := by
  unfold lengthOf
  split
  · exact .inl rfl
  · rename_i hgroup
    split
    · exact .inl rfl
    · rename_i hbit
      exact .inr ⟨fun e => hgroup (.inr e), by simpa using hbit, rfl⟩

theorem lengthOf_le_six (w : Word16) : lengthOf w ≤ 6 := by
  unfold lengthOf
  split_ifs <;> omega

theorem fieldLength_le_of_withImm {f : BitVec 4} {ws : List Word16} {k : Imm → Instr} {p : Instr × List Word16}
    (h : withImm f ws k = .ok p) : fieldLength f ≤ 2 * (ws.length + 1) := by
  unfold withImm at h
  unfold fieldLength
  split
  · rw [if_pos ‹_›] at h
    match ws, h with
    | _ :: _, _ => simp only [List.length_cons]; omega
  · rw [if_neg ‹_›] at h
    split
    · rw [if_pos ‹_›] at h
      match ws, h with
      | _ :: _ :: _, _ => simp only [List.length_cons]; omega
    · omega

theorem fieldLength_le_of_extended {b d f : BitVec 4} {ws : List Word16} {p : Instr × List Word16}
    (h : extended b d f ws = .ok p) : fieldLength f ≤ 2 * (ws.length + 1) := by
  by_cases h14 : f = 14
  · subst h14
    match ws, h with
    | _ :: _, _ => simp only [List.length_cons, fieldLength_fourteen]; omega
  · by_cases h15 : f = 15
    · subst h15
      match ws, h with
      | _ :: _ :: _, _ => simp only [List.length_cons, fieldLength_fifteen]; omega
    · simp only [fieldLength, if_neg h14, if_neg h15]
      omega

/-- The group field of a word whose bits 15 to 12 are 0001. -/
theorem nibble_three_eq_one {w : Word16} (h15 : w.getLsbD 15 = false) (h14 : w.getLsbD 14 = false)
    (h13 : w.getLsbD 13 = false) (h12 : w.getLsbD 12 = true) : nibble w 3 = 1 := by
  rw [getLsbD_group w (i := 3) (by decide)] at h15
  rw [getLsbD_group w (i := 2) (by decide)] at h14
  rw [getLsbD_group w (i := 1) (by decide)] at h13
  rw [getLsbD_group w (i := 0) (by decide)] at h12
  generalize nibble w 3 = g at *
  revert g
  decide

/-- A word with its `#` bit set that is no BRANCH takes an immediate or is of group 9. -/
theorem decode_of_immBit {w : Word16} (ws : List Word16) (hbranch : nibble w 3 ≠ 1) (h12 : w.getLsbD 12 = true) :
    (∃ k, decode (w :: ws) = withImm (nibble w 0) ws k) ∨
      decode (w :: ws) = extended (nibble w 2) (nibble w 1) (nibble w 0) ws :=
  match h15 : w.getLsbD 15, h14 : w.getLsbD 14, h13 : w.getLsbD 13 with
  | false, false, false => absurd (nibble_three_eq_one h15 h14 h13 h12) hbranch
  | false, false, true => .inl ⟨mathImm (nibble w 2) (nibble w 1), by simp only [decode, h15, h14, h13, h12]⟩
  | false, true, false => .inl ⟨shiftImm (nibble w 2) (nibble w 1), by simp only [decode, h15, h14, h13, h12]⟩
  | false, true, true => .inl ⟨logicImm (nibble w 2) (nibble w 1), by simp only [decode, h15, h14, h13, h12]⟩
  | true, false, false => .inr (by simp only [decode, h15, h14, h13, h12])
  | true, false, true => .inl ⟨.stbI (nibble w 2) (nibble w 1), by simp only [decode, h15, h14, h13, h12]⟩
  | true, true, false => .inl ⟨.ldI (nibble w 2) (nibble w 1), by simp only [decode, h15, h14, h13, h12]⟩
  | true, true, true => .inl ⟨.stI (nibble w 2) (nibble w 1), by simp only [decode, h15, h14, h13, h12]⟩

/-- A decoded instruction lies within the words it was decoded from. -/
theorem lengthOf_le_of_decode {w : Word16} {ws : List Word16} {p : Instr × List Word16}
    (h : decode (w :: ws) = .ok p) : lengthOf w ≤ 2 * (ws.length + 1) := by
  rcases lengthOf_eq w with e | ⟨hbranch, hbit, e⟩
  · omega
  · rw [e]
    rcases decode_of_immBit ws hbranch hbit with ⟨k, e⟩ | e
    · exact fieldLength_le_of_withImm (e ▸ h)
    · exact fieldLength_le_of_extended (e ▸ h)

end Sys2Proof
end

section
/-! SUPPORT. The fetch and the instruction step up to execution (10_state.md rules R20, R22, R28), in the arithmetic of
the statements. -/

namespace Sys2Proof.Machine

open Sys2Proof.Claims

variable {u : State} {n : Nat} {a : CodeAddr} {w : Word16}

theorem State.toNat_pcAddr (s : State) : s.pcAddr.toNat = s.pc.toNat % 2 ^ 28 := by
  simp [State.pcAddr, BitVec.extractLsb'_toNat]

theorem State.toNat_pcTop (s : State) : s.pcTop.toNat = s.pc.toNat / 2 ^ 28 := by
  have := s.pc.isLt
  rw [State.pcTop, BitVec.extractLsb'_toNat, Nat.shiftRight_eq_div_pow]
  omega

theorem State.toNat_pcAddr_add (s : State) (k : Nat) :
    (s.pcAddr + BitVec.ofNat 28 k).toNat = (s.pc.toNat + k) % 2 ^ 28 := by
  rw [BitVec.toNat_add, BitVec.toNat_ofNat, State.toNat_pcAddr]
  omega

/-- The PC that passing over `len` bytes leaves, as a number. -/
theorem advanced_of_pc {s t : State} {len : Nat} (h : t.pc = s.pcTop ++ (s.pcAddr + BitVec.ofNat 28 len)) :
    Advanced s t len := by
  have hn : t.pc.toNat = s.pc.toNat / 2 ^ 28 * 2 ^ 28 + (s.pc.toNat + len) % 2 ^ 28 := by
    rw [h, toNat_append_eq_add, s.toNat_pcTop, s.toNat_pcAddr_add]
  unfold Advanced
  omega

/-- Program text at a distance from the PC. -/
theorem fetchWord_pcAddr_add (k : Nat) :
    u.fetchWord (u.pcAddr + BitVec.ofNat 28 k) = textWord u (u.pc.toNat + k) := by
  rw [State.fetchWord, textWord, u.toNat_pcAddr_add]

theorem fetchWord_pcAddr : u.fetchWord u.pcAddr = textWord u u.pc.toNat := by
  rw [State.fetchWord, textWord, u.toNat_pcAddr]

theorem fetchWords_of_word (h : u.fetchWord a = some w) : u.fetchWords (n + 1) a = w :: u.fetchWords n (a + 2) := by
  simp only [State.fetchWords, h]

theorem fetchWords_of_missing (h : u.fetchWord a = none) : u.fetchWords (n + 1) a = [] := by
  simp only [State.fetchWords, h]

/-- A fetch ends before the first missing word. -/
theorem length_fetchWords {k : Nat} (hk : k < n)
    (hthere : ∀ j, j < k → u.fetchWord (a + BitVec.ofNat 28 (2 * j)) ≠ none)
    (hmissing : u.fetchWord (a + BitVec.ofNat 28 (2 * k)) = none) : (u.fetchWords n a).length = k := by
  induction n generalizing k a with
  | zero => omega
  | succ n ih =>
    cases k with
    | zero => rw [fetchWords_of_missing (by simpa using hmissing), List.length_nil]
    | succ k =>
      obtain ⟨w, hw⟩ := Option.ne_none_iff_exists'.mp (hthere 0 (by omega))
      have hnext : ∀ j, a + BitVec.ofNat 28 (2 * (j + 1)) = a + 2 + BitVec.ofNat 28 (2 * j) := fun j => by
        rw [Nat.mul_succ, Nat.add_comm, BitVec.ofNat_add, BitVec.add_assoc]
        rfl
      rw [fetchWords_of_word (by simpa using hw), List.length_cons,
        ih (by omega) (fun j hj => hnext j ▸ hthere (j + 1) (by omega)) (hnext k ▸ hmissing)]

theorem getLsbD_zero_eq_true_iff {x : BitVec 32} : x.getLsbD 0 = true ↔ x.toNat % 2 = 1 := by
  rw [← BitVec.testBit_toNat, Nat.testBit_zero, decide_eq_true_eq]

theorem getLsbD_zero_eq_false_iff {x : BitVec 32} : x.getLsbD 0 = false ↔ x.toNat % 2 = 0 := by
  rw [← Bool.not_eq_true, getLsbD_zero_eq_true_iff]
  omega

/-- Words fewer than the first of them calls for are no instruction. -/
theorem decode_fetchWords_error (hw : u.fetchWord a = some w) (hlen : 2 * (u.fetchWords 3 a).length < lengthOf w) :
    ∃ e, decode (u.fetchWords 3 a) = .error e := by
  cases hd : decode (u.fetchWords 3 a) with
  | error e => exact ⟨e, rfl⟩
  | ok p =>
    rw [fetchWords_of_word hw] at hd hlen
    have hle := lengthOf_le_of_decode hd
    rw [List.length_cons] at hlen
    omega

/-- A task that can fetch passes every check before the fetch. -/
theorem canFetch_checks (h : CanFetch u) :
    u.pc.getLsbD 0 = false ∧ (u.stack.p || u.stack.b) = false ∧ (!u.banksExist) = false := by
  obtain ⟨hpc, hp, hb, hA, hB⟩ := h
  exact ⟨getLsbD_zero_eq_false_iff.mpr hpc, by rw [hp, hb]; rfl, by simp [State.banksExist, hA, hB]⟩

/-! ### How the issue of a running task ends -/

theorem issueRunning_oddPc (h : u.pc.toNat % 2 = 1) : issueRunning u = .done (raise (.misalignedFetch u.pc)) := by
  rw [issueRunning, if_pos (getLsbD_zero_eq_true_iff.mpr h)]

theorem issueRunning_modes (hpc : u.pc.toNat % 2 = 0) (h : u.stack.p = true ∨ u.stack.b = true) :
    issueRunning u = .done (refuse .modeUnmodelled) := by
  have hpc' := ne_true_of_eq_false (getLsbD_zero_eq_false_iff.mpr hpc)
  rw [issueRunning, if_neg hpc', if_pos (Bool.or_eq_true .. ▸ h)]

theorem issueRunning_banks (hpc : u.pc.toNat % 2 = 0) (hp : u.stack.p = false) (hb : u.stack.b = false)
    (h : u.banksExist = false) : issueRunning u = .done (raise .bankOutOfRange) := by
  have hpc' := ne_true_of_eq_false (getLsbD_zero_eq_false_iff.mpr hpc)
  rw [issueRunning, if_neg hpc', hp, hb, if_neg (by decide), h, if_pos Bool.not_false]

section canFetch
variable (h : CanFetch u)
include h

theorem issueRunning_noWord (hw : u.fetchWord u.pcAddr = none) :
    issueRunning u = .done (raise (.unwrittenRead (.code u.pcAddr))) := by
  obtain ⟨hpc, hmodes, hbanks⟩ := canFetch_checks h
  simp only [issueRunning, hpc, hmodes, hbanks, hw, Bool.false_eq_true, if_false]

theorem issueRunning_skipped (hw : u.fetchWord u.pcAddr = some w) (hs : u.skip0 = true) :
    issueRunning u = .done (.next (u.shiftSkip.retire (lengthOf w))) := by
  obtain ⟨hpc, hmodes, hbanks⟩ := canFetch_checks h
  simp only [issueRunning, hpc, hmodes, hbanks, hw, hs, Bool.false_eq_true, if_true, if_false]

theorem issueRunning_noExtension {e : DecodeError} (hw : u.fetchWord u.pcAddr = some w) (hs : u.skip0 = false)
    (hd : decode (u.fetchWords 3 u.pcAddr) = .error e) : issueRunning u =
      .done (raise (.unwrittenRead
        (.code (u.pcAddr + BitVec.ofNat 28 (2 * (u.fetchWords 3 u.pcAddr).length))))) := by
  obtain ⟨hpc, hmodes, hbanks⟩ := canFetch_checks h
  simp only [issueRunning, hpc, hmodes, hbanks, hw, hs, hd, Bool.false_eq_true, if_false]

theorem issueRunning_decoded {i : Instr} {rest : List Word16} (hw : u.fetchWord u.pcAddr = some w)
    (hs : u.skip0 = false) (hd : decode (u.fetchWords 3 u.pcAddr) = .ok (i, rest)) :
    issueRunning u = .run i u.shiftSkip := by
  obtain ⟨hpc, hmodes, hbanks⟩ := canFetch_checks h
  simp only [issueRunning, hpc, hmodes, hbanks, hw, hs, hd, Bool.false_eq_true, if_false]

end canFetch

/-! ### The step of the running task -/

variable {s : State}

theorem step_of_done {r : Result} (hu : Runs s u) (h : issueRunning u = .done r) : step s = r := by
  rw [step_of_schedule hu, h]

theorem step_of_run {i : Instr} {v : State} (hu : Runs s u) (h : issueRunning u = .run i v) : step s = exec i v := by
  rw [step_of_schedule hu, h]

theorem shifted_shiftSkip (u : State) : Shifted u u.shiftSkip := by
  unfold Shifted
  rw [State.shiftSkip_status]
  refine ⟨rfl, ?_⟩
  rw [BitVec.toNat_shiftLeft, Nat.shiftLeft_eq]

/-- The frame of the statements is part of an instruction's effect. -/
theorem Effect.apart {s t : State} (h : Effect s t) : Apart s t :=
  ⟨h.cfg, h.cur, h.turns, h.env, h.imem, h.others⟩

/-- The words of program text from the PC on, where they are there, begin what the step decodes. -/
theorem fetchWords_begins {ws : List Word16} {w0 : Word16} (h0 : textWord u u.pc.toNat = some w0)
    (hws : ws = [w0] ∨
      (∃ w1, textWord u (u.pc.toNat + 2) = some w1 ∧ ws = [w0, w1]) ∨
      ∃ w1 w2, textWord u (u.pc.toNat + 2) = some w1 ∧ textWord u (u.pc.toNat + 4) = some w2 ∧ ws = [w0, w1, w2]) :
    ws <+: u.fetchWords 3 u.pcAddr := by
  rw [fetchWords_of_word (fetchWord_pcAddr.trans h0)]
  have hsecond : ∀ w1, textWord u (u.pc.toNat + 2) = some w1 →
      u.fetchWords 2 (u.pcAddr + 2) = w1 :: u.fetchWords 1 (u.pcAddr + 2 + 2) := fun w1 h1 =>
    fetchWords_of_word ((fetchWord_pcAddr_add 2).trans h1)
  rcases hws with rfl | ⟨w1, h1, rfl⟩ | ⟨w1, w2, h1, h2, rfl⟩
  · exact ⟨_, rfl⟩
  · rw [hsecond w1 h1]
    exact ⟨_, rfl⟩
  · have hthird : u.pcAddr + 2 + 2 = u.pcAddr + BitVec.ofNat 28 4 := BitVec.add_assoc ..
    rw [hsecond w1 h1, hthird, fetchWords_of_word ((fetchWord_pcAddr_add 4).trans h2)]
    exact ⟨_, rfl⟩

end Sys2Proof.Machine

namespace Sys2Proof.Proofs

open Sys2Proof.Machine Sys2Proof.Claims

/-- Settles O47: the words given begin what the step fetches, and the decoder reads no word after the instruction's
own. -/
theorem stepRunsTheDecodedInstruction : Obligations.StepRunsTheDecodedInstruction := by
  intro s u w0 i ws rest hu hf hskip h0 hws hd
  obtain ⟨ys, hys⟩ := fetchWords_begins h0 hws
  have hd' : decode (u.fetchWords 3 u.pcAddr) = .ok (i, rest ++ ys) := hys ▸ decode_append hd
  exact ⟨u.shiftSkip, shifted_shiftSkip u,
    step_of_run hu (issueRunning_decoded hf (fetchWord_pcAddr.trans h0) hskip hd')⟩

/-- Settles O48: the step of a skipped instruction shifts the skip bits and retires, whatever the instruction is. -/
theorem skippedInstructionIsANoop : Obligations.SkippedInstructionIsANoop := by
  intro s u w hu hf hskip hw
  refine ⟨u.shiftSkip.retire (lengthOf w),
    step_of_done hu (issueRunning_skipped hf (fetchWord_pcAddr.trans hw) hskip), (Effect.ofSkipped u _).apart,
    ⟨State.readReg_congr rfl (by simp) (by simp) (by simp), fun _ => rfl⟩, fun _ => rfl, advanced_of_pc ?_,
    ⟨u.shiftSkip, shifted_shiftSkip u, State.retire_status ..⟩, by simp, rfl, rfl⟩
  simp [State.pcTop, State.pcAddr]

/-- Settles O49: one law of `issueRunning` for each check, and for the missing word the length of the fetch, at which
no instruction as long as the first word tells can be decoded. -/
theorem fetchChecksInOrder : Obligations.FetchChecksInOrder := by
  intro s u hu
  refine ⟨fun h => step_of_done hu (issueRunning_oddPc h),
    fun hpc h => step_of_done hu (issueRunning_modes hpc h),
    fun hpc hp hb h => step_of_done hu (issueRunning_banks hpc hp hb ?_), fun k hf hthere hmissing hk =>
      ⟨u.pcAddr + BitVec.ofNat 28 (2 * k), u.toNat_pcAddr_add _, step_of_done hu ?_⟩⟩
  · rw [State.banksExist, Bool.and_eq_false_iff, decide_eq_false_iff_not, decide_eq_false_iff_not]
    exact h.imp Nat.not_lt.mpr Nat.not_lt.mpr
  · rcases hk with rfl | ⟨hskip, w, hw, hlen⟩
    · rw [issueRunning_noWord hf (fetchWord_pcAddr.trans hmissing), Nat.mul_zero, BitVec.add_zero]
      rfl
    · have hw' := fetchWord_pcAddr.trans hw
      have hk3 : k < 3 := by
        have := lengthOf_le_six w
        omega
      have hk : (u.fetchWords 3 u.pcAddr).length = k :=
        length_fetchWords hk3 (fun j hj => fetchWord_pcAddr_add (2 * j) ▸ hthere j hj)
          ((fetchWord_pcAddr_add (2 * k)).trans hmissing)
      obtain ⟨e, he⟩ := decode_fetchWords_error hw' (hk.symm ▸ hlen)
      rw [issueRunning_noExtension hf hw' hskip he, hk]
      rfl

end Sys2Proof.Proofs
end

section
/-! SUPPORT. What no step changes (20_memory.md rule R57): neither the environment's moves nor the scheduler nor an
instruction reaches the program text or the launch parameters. -/

namespace Sys2Proof.Machine

variable {s t : State}

theorem schedule_imem_cfg (h : s.schedule = some t) : t.imem = s.imem ∧ t.cfg = s.cfg := by
  obtain ⟨_, _, _, rfl⟩ := schedule_some h
  exact ⟨rfl, rfl⟩

end Sys2Proof.Machine

namespace Sys2Proof.Proofs

open Sys2Proof.Machine

/-- Settles O55: each part of a step leaves both fields alone. -/
theorem stepWritesNoProgramTextOrParameter : Obligations.StepWritesNoProgramTextOrParameter := by
  intro s t h
  rcases step_effect h with ⟨-, rfl⟩ | ⟨u, hu, he⟩
  · exact ⟨s.arrived.imem, s.arrived.cfg⟩
  · obtain ⟨himem, hcfg⟩ := schedule_imem_cfg hu
    exact ⟨he.imem.trans (himem.trans s.arrived.imem), he.cfg.trans (hcfg.trans s.arrived.cfg)⟩

end Sys2Proof.Proofs
end

section
/-! SUPPORT. Immediates, data addresses and the checks on them in the spec's arithmetic (30_encoding.md rule R76,
20_memory.md rules R41 to R52): each operation of the model against the word of the statements for it. -/

namespace Sys2Proof.Machine

open Sys2Proof.Claims

variable {s : State} {a : DataAddr} {bv ov : Word}

theorem immValue_eq_immediate (order : Imm32Order) (m : Imm) : immValue order m = immediate order m := by
  apply BitVec.eq_of_toNat_eq
  cases m with
  | short v => simp [immValue, immediate]
  | word e => simp [immValue, immediate]
  | long e1 e2 =>
    have h1 := e1.isLt
    have h2 := e2.isLt
    cases order <;> simp only [immValue, immediate, toNat_append_eq_add, BitVec.toNat_ofNat] <;> omega

/-- A bit of a word is a binary digit of its number. -/
theorem getLsbD_eq_decide_digit {w : Nat} (x : BitVec w) (i : Nat) :
    x.getLsbD i = decide (x.toNat / 2 ^ i % 2 = 1) := by
  rw [← BitVec.testBit_toNat, Nat.testBit_eq_decide_div_mod_eq]

theorem isObjRef_iff {v : Word} : isObjRef v = true ↔ ObjectAddress v := by
  have := v.isLt
  rw [isObjRef, bne_iff_ne, getLsbD_eq_decide_digit, getLsbD_eq_decide_digit, ne_eq, decide_eq_decide, ObjectAddress]
  omega

theorem toNat_taskVectorOf_specDefault (t : BitVec 15) :
    (taskVectorOf .specDefault t).toNat = 2 ^ 31 + t.toNat * 2 ^ 15 := by
  simp only [taskVectorOf, toNat_append_eq_add, BitVec.toNat_ofNat]
  omega

theorem toNat_taskOfRefOf_specDefault (ref : Word) :
    (taskOfRefOf .specDefault ref).toNat =
      if ref.toNat / 2 ^ 31 = 1 then ref.toNat / 2 ^ 15 % 2 ^ 15
      else ref.toNat / 2 ^ 29 % 2 * 2 ^ 14 + ref.toNat / 2 ^ 22 % 2 ^ 7 := by
  have := ref.isLt
  have htop : ref.getLsbD 31 = decide (ref.toNat / 2 ^ 31 = 1) := by
    rw [getLsbD_eq_decide_digit, decide_eq_decide]
    omega
  by_cases h : ref.toNat / 2 ^ 31 = 1
  · simp only [taskOfRefOf, htop, h, decide_true, if_true, BitVec.extractLsb'_toNat, Nat.shiftRight_eq_div_pow]
  · simp only [taskOfRefOf, htop, h, decide_false, Bool.false_eq_true, if_false, toNat_append_eq_add,
      BitVec.extractLsb'_toNat, Nat.shiftRight_eq_div_pow, BitVec.toNat_ofNat]
    omega

/-- The statements' address is the one the model forms. -/
theorem effectiveAddr_eq_of_address (h : Address s bv ov a) : s.effectiveAddr bv ov = a := by
  obtain ⟨hobject, hfirst⟩ := h
  unfold State.effectiveAddr
  by_cases hb : ObjectAddress bv
  · obtain ⟨rfl, rfl⟩ := hobject hb
    rw [if_pos (isObjRef_iff.mpr hb)]
  · obtain ⟨hdefault, hsupplied, hoff⟩ := hfirst hb
    rw [if_neg (fun e => hb (isObjRef_iff.mp e)), DataAddr.mk.injEq]
    constructor
    · cases hv : s.cfg.taskVector with
      | specDefault => exact BitVec.eq_of_toNat_eq ((toNat_taskVectorOf_specDefault _).trans (hdefault hv).symm)
      | supplied => exact (hsupplied hv).symm
    · exact BitVec.eq_of_toNat_eq ((BitVec.toNat_add ..).trans hoff.symm)

theorem ownAddr_iff : s.ownAddr bv = true ↔ Own s bv := by
  unfold Own
  rw [State.ownAddr, Bool.or_eq_true, Bool.not_eq_true', ← Bool.not_eq_true, isObjRef_iff, beq_iff_eq,
    ← imp_iff_not_or]
  refine imp_congr_right fun _ => ?_
  cases s.cfg.taskOfRef with
  | specDefault => rw [← BitVec.toNat_inj, toNat_taskOfRefOf_specDefault, eq_comm]; simp
  | supplied => simp [taskOfRefOf]

theorem storeAllowed_eq_false (h : ¬ Own s bv) : s.storeAllowed bv = false :=
  Bool.eq_false_iff.mpr fun e => h (ownAddr_iff.mp e)

theorem storeAllowed_eq_true (h : Own s bv) : s.storeAllowed bv = true := ownAddr_iff.mpr h

theorem loadAllowed_eq_false (h : ¬ Own s bv) (hro : bv.getLsbD 29 = false) : s.loadAllowed bv = false :=
  Bool.or_eq_false_iff.mpr ⟨storeAllowed_eq_false h, hro⟩

theorem loadAllowed_eq_true (h : Own s bv ∨ bv.getLsbD 29 = true) : s.loadAllowed bv = true :=
  Bool.or_eq_true_iff.mpr (h.imp_left ownAddr_iff.mpr)

theorem validAddr_iff {n : Nat} : validAddr s.cfg.valid a n = true ↔ AllExist s a.obj a.off.toNat n := by
  cases hv : s.cfg.valid <;>
    simp [validAddr, AllExist, ByteIsThere, byteExists, regionHolds, hv, and_assoc]

theorem DataAddr.low2_eq_zero_iff : a.low2 = 0 ↔ a.off.toNat % 4 = 0 := by
  rw [← BitVec.toNat_inj, DataAddr.low2, BitVec.extractLsb'_toNat, Nat.shiftRight_zero]
  rfl

theorem DataAddr.toNat_aligned_off (a : DataAddr) : a.aligned.off.toNat = a.off.toNat / 4 * 4 := by
  have := a.off.isLt
  rw [DataAddr.aligned, toNat_append_eq_add, BitVec.extractLsb'_toNat, Nat.shiftRight_eq_div_pow, BitVec.toNat_ofNat]
  omega

theorem DataAddr.aligned_eq_wordAddr (a : DataAddr) : a.aligned = wordAddr a := by
  have := a.off.isLt
  rw [wordAddr, ← a.toNat_aligned_off, BitVec.ofNat_toNat, BitVec.setWidth_eq]
  rfl

theorem DataAddr.aligned_of_low2_eq_zero (h : a.low2 = 0) : a.aligned = a := by
  have hoff : a.aligned.off = a.off := BitVec.eq_of_toNat_eq (by
    rw [a.toNat_aligned_off]
    have := DataAddr.low2_eq_zero_iff.mp h
    omega)
  exact congrArg (DataAddr.mk a.obj) hoff

/-- A word with an unwritten byte reads as nothing. -/
theorem memRead4_eq_none {j : Nat} (hj : j < 4) (h : s.readByte (a.key + j) = none) : s.memRead4 a = none := by
  unfold State.memRead4
  split
  · interval_cases j <;> simp_all
  · rfl

@[simp] theorem loadValue_zero (o : ByteOrder) (f : OpenFn) (w : Word) : loadValue o f 0 w = w := by
  cases f <;> simp [loadValue]

end Sys2Proof.Machine
end

section
/-! SUPPORT. Where LD, ST and STB stop and what they deliver (44_ld_st_stb.md rules R191 to R194): one law for each end
of the three shared operations. -/

namespace Sys2Proof.Machine

variable {s : State} {b r : Reg} {src : Src} {a : DataAddr}

section
variable (ha : s.effectiveAddr (s.readReg b) (s.srcValue src) = a)
include ha

theorem load_of_notAllowed (h : s.loadAllowed (s.readReg b) = false) :
    load b r src s = .fault (.accessErrorLoad a) := by
  simp only [load, ha, h, Bool.not_false, if_true, raise]

theorem load_of_invalid (h : s.loadAllowed (s.readReg b) = true) (hv : validAddr s.cfg.valid a.aligned 4 = false) :
    load b r src s = .fault (.invalidAddress a.aligned 4) := by
  simp only [load, ha, h, hv, Bool.not_true, Bool.false_eq_true, if_false, Bool.not_false, if_true, raise]

theorem load_of_unwritten (h : s.loadAllowed (s.readReg b) = true) (hv : validAddr s.cfg.valid a.aligned 4 = true)
    (hw : s.memRead4 a.aligned = none) : load b r src s = .fault (.unwrittenRead (.data a.aligned)) := by
  simp only [load, ha, h, hv, hw, Bool.not_true, Bool.false_eq_true, if_false, raise]

theorem load_of_word {w : Word} (h : s.loadAllowed (s.readReg b) = true)
    (hv : validAddr s.cfg.valid a.aligned 4 = true) (hw : s.memRead4 a.aligned = some w) :
    load b r src s = .next ((s.writeReg r (loadValue s.cfg.byteOrder s.cfg.ldFill a.low2 w)).retire (srcLen src)) := by
  simp only [load, ha, h, hv, hw, Bool.not_true, Bool.false_eq_true, if_false]

theorem store_of_notAllowed (h : s.storeAllowed (s.readReg b) = false) :
    store b r src s = .fault (.accessErrorStore a) := by
  simp only [store, ha, h, Bool.not_false, if_true, raise]

theorem store_of_misaligned (h : s.storeAllowed (s.readReg b) = true) (hl : a.low2 ≠ 0) :
    store b r src s = .fault (.misalignedStore a) := by
  simp only [store, ha, h, hl, ne_eq, not_false_eq_true, Bool.not_true, Bool.false_eq_true, if_false, if_true, raise]

theorem store_of_invalid (h : s.storeAllowed (s.readReg b) = true) (hl : a.low2 = 0)
    (hv : validAddr s.cfg.valid a 4 = false) : store b r src s = .fault (.invalidAddress a 4) := by
  simp only [store, ha, h, hl, hv, ne_eq, not_true_eq_false, Bool.not_true, Bool.false_eq_true, if_false,
    Bool.not_false, if_true, raise]

theorem storeByte_of_notAllowed (h : s.storeAllowed (s.readReg b) = false) :
    storeByte b r src s = .fault (.accessErrorStore a) := by
  simp only [storeByte, ha, h, Bool.not_false, if_true, raise]

theorem storeByte_of_invalid (h : s.storeAllowed (s.readReg b) = true) (hv : validAddr s.cfg.valid a 1 = false) :
    storeByte b r src s = .fault (.invalidAddress a 1) := by
  simp only [storeByte, ha, h, hv, Bool.not_true, Bool.false_eq_true, if_false, Bool.not_false, if_true, raise]

end

end Sys2Proof.Machine

namespace Sys2Proof.Proofs

open Sys2Proof.Machine Sys2Proof.Claims

variable {s : State} {i : Instr} {b r : Reg} {src : Src}

theorem loadStops_of_load (h : exec i s = load b r src s) : LoadStops i s (s.readReg b) (s.srcValue src) := by
  intro a haddr
  have ha := effectiveAddr_eq_of_address haddr
  rw [h, ← a.aligned_eq_wordAddr]
  refine ⟨fun hown hro => load_of_notAllowed ha (loadAllowed_eq_false hown hro), fun hown => ?_⟩
  have hallowed := loadAllowed_eq_true hown
  have hvalid : validAddr s.cfg.valid a.aligned 4 = true ↔ AllExist s a.obj (a.off.toNat / 4 * 4) 4 :=
    a.toNat_aligned_off ▸ validAddr_iff
  refine ⟨fun hmissing => load_of_invalid ha hallowed (Bool.eq_false_iff.mpr (mt hvalid.mp hmissing)),
    fun hexist ⟨j, hj, hbyte⟩ => load_of_unwritten ha hallowed (hvalid.mpr hexist) (memRead4_eq_none hj ?_)⟩
  rwa [DataAddr.key, a.toNat_aligned_off, Nat.add_assoc]

theorem storeStops_of_store (h : exec i s = store b r src s) : StoreStops i s (s.readReg b) (s.srcValue src) := by
  intro a haddr
  have ha := effectiveAddr_eq_of_address haddr
  rw [h]
  refine ⟨fun hown => store_of_notAllowed ha (storeAllowed_eq_false hown), fun hown => ?_⟩
  have hallowed := storeAllowed_eq_true hown
  exact ⟨fun hlow => store_of_misaligned ha hallowed (mt DataAddr.low2_eq_zero_iff.mp hlow),
    fun hlow hmissing => store_of_invalid ha hallowed (DataAddr.low2_eq_zero_iff.mpr hlow)
      (Bool.eq_false_iff.mpr (mt validAddr_iff.mp hmissing))⟩

theorem storeByteStops_of_storeByte (h : exec i s = storeByte b r src s) :
    StoreByteStops i s (s.readReg b) (s.srcValue src) := by
  intro a haddr
  have ha := effectiveAddr_eq_of_address haddr
  rw [h]
  exact ⟨fun hown => storeByte_of_notAllowed ha (storeAllowed_eq_false hown), fun hown hmissing =>
    storeByte_of_invalid ha (storeAllowed_eq_true hown) (Bool.eq_false_iff.mpr (mt validAddr_iff.mp hmissing))⟩

/-- Settles O34: each form is one of the three shared operations, whose checks come in the order of rule R194. -/
theorem memoryChecksInOrder : Obligations.MemoryChecksInOrder := by
  intro s b r
  refine ⟨fun o => ⟨loadStops_of_load (src := .reg o) rfl, storeStops_of_store (src := .reg o) rfl,
    storeByteStops_of_storeByte (src := .reg o) rfl⟩, fun m => ?_⟩
  rw [← immValue_eq_immediate]
  exact ⟨loadStops_of_load (src := .imm m) rfl, storeStops_of_store (src := .imm m) rfl,
    storeByteStops_of_storeByte (src := .imm m) rfl⟩

end Sys2Proof.Proofs
end

section
/-! SUPPORT. What a ST leaves for a LD at the same operands (20_memory.md rules R47, R48, R55). -/

namespace Sys2Proof.Machine

variable {s t : State}

@[simp] theorem State.readReg_retire (s : State) (len : Nat) (n : Reg) : (s.retire len).readReg n = s.readReg n :=
  State.readReg_congr (s := s) (t := s.retire len) rfl (by simp) (by simp) (by simp) n

@[simp] theorem State.readReg_memWrite4 (s : State) (a : DataAddr) (v : Word) (n : Reg) :
    (s.memWrite4 a v).readReg n = s.readReg n := rfl

theorem State.srcValue_congr (hreg : ∀ n, t.readReg n = s.readReg n) (hcfg : t.cfg = s.cfg) (src : Src) :
    t.srcValue src = s.srcValue src := by
  cases src with
  | reg r => exact hreg r
  | imm m => simp only [State.srcValue, hcfg]

theorem State.effectiveAddr_congr (hcfg : t.cfg = s.cfg) (hstack : t.stack = s.stack) (bv ov : Word) :
    t.effectiveAddr bv ov = s.effectiveAddr bv ov := by
  simp only [State.effectiveAddr, hcfg, hstack]

theorem State.ownAddr_congr (hcfg : t.cfg = s.cfg) (hstack : t.stack = s.stack) (bv : Word) :
    t.ownAddr bv = s.ownAddr bv := by
  simp only [State.ownAddr, hcfg, hstack]

theorem store_keeps {b r : Reg} {src : Src} (h : store b r src s = .next t) :
    (∀ n, t.readReg n = s.readReg n) ∧ t.cfg = s.cfg ∧ t.stack = s.stack := by
  obtain ⟨-, -, -, rfl⟩ := store_next h
  exact ⟨fun n => by simp, rfl, by simp⟩

/-- After a ST a LD at the same operands passes the checks the ST has passed, and reads the word stored. -/
theorem load_after_store {b r : Reg} {src : Src} (d : Reg) (h : store b r src s = .next t) :
    load b d src t = .next ((t.writeReg d (s.readReg r)).retire (srcLen src)) := by
  obtain ⟨hreg, hcfg, hstack⟩ := store_keeps h
  obtain ⟨hown, hlow, hvalid, ht⟩ := store_next h
  generalize ha : s.effectiveAddr (s.readReg b) (s.srcValue src) = a at hlow hvalid ht
  have haligned := DataAddr.aligned_of_low2_eq_zero hlow
  have haddr : t.effectiveAddr (t.readReg b) (t.srcValue src) = a := by
    rw [hreg, State.srcValue_congr hreg hcfg, State.effectiveAddr_congr hcfg hstack, ha]
  have hallowed : t.loadAllowed (t.readReg b) = true := by
    rw [hreg, State.loadAllowed, State.ownAddr_congr hcfg hstack, Bool.or_eq_true]
    exact .inl hown
  have hword : t.memRead4 a.aligned = some (s.readReg r) := by
    rw [haligned, ht]
    exact memRead4_memWrite4 s a _
  rw [load_of_word haddr hallowed (by rw [haligned, hcfg, hvalid]) hword, hlow, loadValue_zero]

end Sys2Proof.Machine

namespace Sys2Proof.Proofs

open Sys2Proof.Machine Sys2Proof.Claims

theorem loadsBack_of_store {s t : State} {b r d : Reg} {src : Src} {i : Instr} (h : store b r src s = .next t)
    (hi : exec i t = load b d src t) : LoadsBack i s t r d := by
  obtain ⟨hreg, -, -⟩ := store_keeps h
  refine ⟨_, hi.trans (load_after_store d h), fun hd => ?_, fun n hn => ?_, fun _ => rfl⟩
  · rw [State.readReg_retire, State.readReg_writeReg_same _ _ hd]
  · rw [State.readReg_retire, State.readReg_writeReg_other _ _ hn, hreg]

/-- Settles O35: both forms of ST are `store` and both forms of LD are `load`, with the same operands. -/
theorem storedWordLoadsBack : Obligations.StoredWordLoadsBack := by
  intro s t b r d
  exact ⟨fun o h => loadsBack_of_store (src := .reg o) h rfl, fun m h => loadsBack_of_store (src := .imm m) h rfl⟩

end Sys2Proof.Proofs
end

section
/-! SUPPORT. What the decoder answers for a first word of four given fields (30_encoding.md rules R71 to R74, R76, R80):
one equation for each of the sixteen groups, and what a group whose `#` bit is set shares. -/

namespace Sys2Proof

/-! ## The sixteen groups -/

section groups
variable (f d l : BitVec 4) (ws : List Word16)

theorem decode_skip : decode (wordOf 0 f d l :: ws) = .ok (.skip (condOf f) (d ++ l), ws) := by simp [decode]
theorem decode_branch : decode (wordOf 1 f d l :: ws) = .ok (.branch (condOf f) (d ++ l), ws) := by simp [decode]
theorem decode_math : decode (wordOf 2 f d l :: ws) = .ok (mathReg f d l, ws) := by simp [decode]
theorem decode_mathI : decode (wordOf 3 f d l :: ws) = withImm l ws (mathImm f d) := by simp [decode]
theorem decode_shift : decode (wordOf 4 f d l :: ws) = .ok (shiftReg f d l, ws) := by simp [decode]
theorem decode_shiftI : decode (wordOf 5 f d l :: ws) = withImm l ws (shiftImm f d) := by simp [decode]
theorem decode_logic : decode (wordOf 6 f d l :: ws) = .ok (logicReg f d l, ws) := by simp [decode]
theorem decode_logicI : decode (wordOf 7 f d l :: ws) = withImm l ws (logicImm f d) := by simp [decode]
theorem decode_jumpl : decode (wordOf 8 f d l :: ws) = .ok (.jumpl f d l, ws) := by simp [decode]
theorem decode_group9 : decode (wordOf 9 f d l :: ws) = extended f d l ws := by simp [decode]
theorem decode_stb : decode (wordOf 10 f d l :: ws) = .ok (.stb f d l, ws) := by simp [decode]
theorem decode_stbI : decode (wordOf 11 f d l :: ws) = withImm l ws (.stbI f d) := by simp [decode]
theorem decode_ld : decode (wordOf 12 f d l :: ws) = .ok (.ld f d l, ws) := by simp [decode]
theorem decode_ldI : decode (wordOf 13 f d l :: ws) = withImm l ws (.ldI f d) := by simp [decode]
theorem decode_st : decode (wordOf 14 f d l :: ws) = .ok (.st f d l, ws) := by simp [decode]
theorem decode_stI : decode (wordOf 15 f d l :: ws) = withImm l ws (.stI f d) := by simp [decode]

end groups

/-! ## An immediate and its words -/

section immediates
variable {g f d l : BitVec 4} {ws rest : List Word16} {k : Imm → Instr} {m : Imm} {i : Instr}

/-- The values a four bit immediate field has are those that are not the escapes. -/
theorem toNat_le_thirteen_iff : l.toNat ≤ 13 ↔ l ≠ 14 ∧ l ≠ 15 := by
  revert l
  decide

theorem withImm_short (hl : l.toNat ≤ 13) : withImm l ws k = .ok (k (.short l), ws) := by
  obtain ⟨h14, h15⟩ := toNat_le_thirteen_iff.mp hl
  simp only [withImm, if_neg h14, if_neg h15]

/-- The words of a well-formed immediate are read back as that immediate. -/
theorem decode_immWords (hdec : ∀ l ws, decode (wordOf g f d l :: ws) = withImm l ws k) (hm : m.wellFormed = true)
    (rest : List Word16) : decode (immWords g f d m ++ rest) = .ok (k m, rest) := by
  cases m with
  | short v => exact (hdec v rest).trans (withImm_short (of_decide_eq_true hm))
  | word e => exact hdec 14 (e :: rest)
  | long e1 e2 => exact hdec 15 (e1 :: e2 :: rest)

/-- An immediate that is read is well-formed, and what was read are its words. -/
theorem immWords_of_withImm (g f d : BitVec 4) (hdec : withImm l ws k = .ok (i, rest)) :
    ∃ m, m.wellFormed = true ∧ i = k m ∧ wordOf g f d l :: ws = immWords g f d m ++ rest := by
  unfold withImm at hdec
  split at hdec
  next h14 =>
    subst h14
    match ws, hdec with
    | e :: _, rfl => exact ⟨.word e, rfl, rfl, rfl⟩
  next h14 =>
    split at hdec
    next h15 =>
      subst h15
      match ws, hdec with
      | e1 :: e2 :: _, rfl => exact ⟨.long e1 e2, rfl, rfl, rfl⟩
    next h15 =>
      cases hdec
      exact ⟨.short l, decide_eq_true (toNat_le_thirteen_iff.mpr ⟨h14, h15⟩), rfl, rfl⟩

end immediates

/-! ## Group 9 as an immediate -/

/-- Group 9 takes extension words as the groups with an immediate do (rule R218): its instruction for each immediate.
For a field that is no opcode, so no well-formed immediate, the answer means nothing. -/
def group9Instr (b d : Reg) : Imm → Instr
  | .short code =>
    match extended b d code [] with
    | .ok (i, _) => i
    | .error _ => .rtn b d
  | .word e => .ext16 b d e
  | .long e1 e2 => .jumplI b d e1 e2

theorem extended_eq_withImm (b d l : BitVec 4) (ws : List Word16) :
    extended b d l ws = withImm l ws (group9Instr b d) := by
  revert l
  apply forall_nibble
  iterate 14 refine ⟨rfl, ?_⟩
  constructor
  · cases ws <;> rfl
  · match ws with
    | [] | [_] | _ :: _ :: _ => rfl

theorem group9Instr_wellFormed_encode (b d : Reg) {m : Imm} (hm : m.wellFormed = true) :
    (group9Instr b d m).wellFormed = true ∧ encode (group9Instr b d m) = immWords 9 b d m := by
  cases m with
  | word e => exact ⟨rfl, rfl⟩
  | long e1 e2 => exact ⟨rfl, rfl⟩
  | short code =>
    revert code
    apply forall_nibble
    iterate 14 refine ⟨fun _ => ⟨rfl, rfl⟩, ?_⟩
    exact ⟨fun hm => absurd hm (by decide), fun hm => absurd hm (by decide)⟩

/-! ## The two kinds of first word -/

/-- What a first word of the fields `g f d l` is to the decoder: an instruction by itself, when it has no `#` bit or a
clear one, or else the head of an instruction with an immediate. -/
inductive FirstWord (g f d l : BitVec 4) : Prop
  | whole (i : Instr) (hg : g = 0 ∨ g = 1 ∨ g.getLsbD 0 = false) (hwf : i.wellFormed = true)
      (henc : encode i = [wordOf g f d l]) (hdec : ∀ ws, decode (wordOf g f d l :: ws) = .ok (i, ws))
  | immediate (k : Imm → Instr) (h0 : g ≠ 0) (h1 : g ≠ 1) (hbit : g.getLsbD 0 = true)
      (hk : ∀ m : Imm, m.wellFormed = true → (k m).wellFormed = true ∧ encode (k m) = immWords g f d m)
      (hdec : ∀ ws, decode (wordOf g f d l :: ws) = withImm l ws k)

theorem toNat_half_eq_zero_iff {g : BitVec 4} : g.toNat / 2 = 0 ↔ g = 0 ∨ g = 1 := by
  revert g
  decide

theorem extractLsb'_append_halves (d l : BitVec 4) :
    (d ++ l).extractLsb' 4 4 = d ∧ (d ++ l).extractLsb' 0 4 = l := by
  revert d l
  decide

/-- SKIP and BRANCH: a condition and eight bits. -/
theorem FirstWord.of_condition (g f d l : BitVec 4) {con : Cond → BitVec 8 → Instr} (hg : g = 0 ∨ g = 1)
    (hwf : ∀ c m, (con c m).wellFormed = true)
    (henc : ∀ c m, encode (con c m) = [wordOf g (condField c) (m.extractLsb' 4 4) (m.extractLsb' 0 4)])
    (hdec : ∀ ws, decode (wordOf g f d l :: ws) = .ok (con (condOf f) (d ++ l), ws)) : FirstWord g f d l := by
  obtain ⟨hhigh, hlow⟩ := extractLsb'_append_halves d l
  have hwords : encode (con (condOf f) (d ++ l)) = [wordOf g f d l] := by rw [henc, condField_condOf, hhigh, hlow]
  exact .whole _ (hg.imp_right .inl) (hwf _ _) hwords hdec

/-- Every group is of one of the two kinds. -/
theorem firstWord (g f d l : BitVec 4) : FirstWord g f d l := by
  revert g
  apply forall_nibble
  exact ⟨
    .of_condition 0 f d l (.inl rfl) (fun _ _ => rfl) (fun _ _ => rfl) (decode_skip f d l),
    .of_condition 1 f d l (.inr rfl) (fun _ _ => rfl) (fun _ _ => rfl) (decode_branch f d l),
    .whole _ (by decide) (wellFormed_mathReg f d l) (encode_mathReg f d l) (decode_math f d l),
    .immediate _ (by decide) (by decide) rfl
      (fun m hm => ⟨(wellFormed_mathImm f d m).trans hm, encode_mathImm f d m⟩) (decode_mathI f d l),
    .whole _ (by decide) (wellFormed_shiftReg f d l) (encode_shiftReg f d l) (decode_shift f d l),
    .immediate _ (by decide) (by decide) rfl
      (fun m hm => ⟨(wellFormed_shiftImm f d m).trans hm, encode_shiftImm f d m⟩) (decode_shiftI f d l),
    .whole _ (by decide) (wellFormed_logicReg f d l) (encode_logicReg f d l) (decode_logic f d l),
    .immediate _ (by decide) (by decide) rfl
      (fun m hm => ⟨(wellFormed_logicImm f d m).trans hm, encode_logicImm f d m⟩) (decode_logicI f d l),
    .whole _ (by decide) rfl rfl (decode_jumpl f d l),
    .immediate (group9Instr f d) (by decide) (by decide) rfl (fun _ => group9Instr_wellFormed_encode f d)
      (fun ws => (decode_group9 f d l ws).trans (extended_eq_withImm f d l ws)),
    .whole _ (by decide) rfl rfl (decode_stb f d l),
    .immediate (.stbI f d) (by decide) (by decide) rfl (fun _ hm => ⟨hm, rfl⟩) (decode_stbI f d l),
    .whole _ (by decide) rfl rfl (decode_ld f d l),
    .immediate (.ldI f d) (by decide) (by decide) rfl (fun _ hm => ⟨hm, rfl⟩) (decode_ldI f d l),
    .whole _ (by decide) rfl rfl (decode_st f d l),
    .immediate (.stI f d) (by decide) (by decide) rfl (fun _ hm => ⟨hm, rfl⟩) (decode_stI f d l)⟩

end Sys2Proof

namespace Sys2Proof.Proofs

open Sys2Proof.Claims

/-- Settles O44: each instruction's first word is of the group of its constructor, and the group's equation reads its
operands and extension words back. -/
theorem decodeOfEncodeIsTheInstruction : Obligations.DecodeOfEncodeIsTheInstruction := by
  intro i rest hwf
  cases i with
  | skip c m => exact (decode_skip _ _ _ rest).trans (by rw [condOf_condField, append_halves])
  | branch c off => exact (decode_branch _ _ _ rest).trans (by rw [condOf_condField, append_halves])
  | mov d r | inc d r | not d r | neg d r | add d r | adc d r | sbb d r | sub d r | kmov d r | kinc d r
  | knot d r | kneg d r | kadd d r | kadc d r | ksbb d r | ksub d r =>
    exact decode_math _ d r rest
  | movI d m | incI d m | notI d m | negI d m | addI d m | adcI d m | sbbI d m | subI d m | kmovI d m
  | kincI d m | knotI d m | knegI d m | kaddI d m | kadcI d m | ksbbI d m | ksubI d m =>
    exact decode_immWords (decode_mathI _ d) hwf rest
  | shr d r | shl d r | asr d r | rot d r | div d r | mul d r | dvs d r | mls d r | kshr d r | kshl d r
  | kasr d r | krot d r | kdiv d r | kmul d r | kdvs d r | kmls d r =>
    exact decode_shift _ d r rest
  | shrI d m | shlI d m | asrI d m | rotI d m | divI d m | mulI d m | dvsI d m | mlsI d m | kshrI d m
  | kshlI d m | kasrI d m | krotI d m | kdivI d m | kmulI d m | kdvsI d m | kmlsI d m =>
    exact decode_immWords (decode_shiftI _ d) hwf rest
  | ior d r | xor d r | nor d r | eqv d r | and d r | ani d r | nnd d r | nai d r | kior d r | kxor d r
  | knor d r | keqv d r | kand d r | kani d r | knnd d r | knai d r =>
    exact decode_logic _ d r rest
  | iorI d m | xorI d m | norI d m | eqvI d m | andI d m | aniI d m | nndI d m | naiI d m | kiorI d m
  | kxorI d m | knorI d m | keqvI d m | kandI d m | kaniI d m | knndI d m | knaiI d m =>
    exact decode_immWords (decode_logicI _ d) hwf rest
  | jumpl b l o => exact decode_jumpl b l o rest
  | fadd b d | fsub b d | fmul b d | fdiv b d | stk b d | rtn b d | extReserved6 b d | extReserved7 b d
  | extReserved8 b d | extReserved9 b d | extReservedA b d | extReservedB b d | tadd b d | tsub b d =>
    exact decode_group9 b d _ rest
  | ext16 b d e => exact decode_group9 b d 14 (e :: rest)
  | jumplI b l e1 e2 => exact decode_group9 b l 15 (e1 :: e2 :: rest)
  | stb b r o => exact decode_stb b r o rest
  | ld b r o => exact decode_ld b r o rest
  | st b r o => exact decode_st b r o rest
  | stbI b r m => exact decode_immWords (decode_stbI b r) hwf rest
  | ldI b r m => exact decode_immWords (decode_ldI b r) hwf rest
  | stI b r m => exact decode_immWords (decode_stI b r) hwf rest

/-- Settles O45: the first word is the whole instruction, or a head whose immediate is what the decoder has read. -/
theorem encodeOfDecodeIsTheWords : Obligations.EncodeOfDecodeIsTheWords := by
  intro ws rest i hd
  cases ws with
  | nil => cases hd
  | cons w ws =>
    rw [← wordOf_nibbles w] at hd ⊢
    cases firstWord (nibble w 3) (nibble w 2) (nibble w 1) (nibble w 0) with
    | whole j _ hwf henc hdec =>
      cases (hdec ws).symm.trans hd
      exact ⟨hwf, by rw [henc]; rfl⟩
    | immediate k _ _ _ hk hdec =>
      obtain ⟨m, hm, rfl, hwords⟩ := immWords_of_withImm _ _ _ ((hdec ws).symm.trans hd)
      obtain ⟨hwf, henc⟩ := hk m hm
      exact ⟨hwf, by rw [henc, hwords]⟩

/-- Settles O46: a first word that is a whole instruction leaves every later word; a head reads as many as its field
tells. -/
theorem everyFirstWordIsAnInstruction : Obligations.EveryFirstWordIsAnInstruction := by
  intro w e1 e2 rest
  rw [← wordOf_nibbles w]
  generalize nibble w 3 = g, nibble w 2 = f, nibble w 1 = d, nibble w 0 = l
  have hgroup : (wordOf g f d l).toNat / 2 ^ 13 = g.toNat / 2 := by rw [toNat_wordOf]; omega
  have hfield : (wordOf g f d l).toNat % 16 = l.toNat := by rw [toNat_wordOf]; omega
  rw [hgroup, hfield, getLsbD_wordOf_12, Ne, toNat_half_eq_zero_iff]
  cases firstWord g f d l with
  | whole i hg _ _ hdec =>
    have hno (hn : ¬ (g = 0 ∨ g = 1)) : g.getLsbD 0 ≠ true :=
      Bool.eq_false_iff.mp ((or_assoc.mpr hg).resolve_left hn)
    exact ⟨fun _ => ⟨lengthOf_wordOf_plain g f d l hg, i, hdec rest⟩, fun hn hbit => absurd hbit (hno hn),
      fun hn hbit => absurd hbit (hno hn)⟩
  | immediate k h0 h1 hbit _ hdec =>
    have hlen := lengthOf_wordOf_imm g f d l h0 h1 hbit
    refine ⟨fun hshort => ?_, fun _ _ h14 => ?_, fun _ _ h15 => ?_⟩
    · have hl : l.toNat ≤ 13 :=
        (hshort.resolve_left (not_or_intro h0 h1)).resolve_left (by rw [hbit]; decide)
      obtain ⟨h14, h15⟩ := toNat_le_thirteen_iff.mp hl
      rw [if_neg h14, if_neg h15] at hlen
      exact ⟨hlen, k (.short l), (hdec rest).trans (withImm_short hl)⟩
    · obtain rfl : l = 14 := BitVec.eq_of_toNat_eq h14
      exact ⟨hlen, hdec [], k (.word e1), hdec (e1 :: rest)⟩
    · obtain rfl : l = 15 := BitVec.eq_of_toNat_eq h15
      exact ⟨hlen, hdec [e1], k (.long e1 e2), hdec (e1 :: e2 :: rest)⟩

/-- Format M from the equations of its two groups. -/
theorem formatMDecodes {g : BitVec 4} {reg : Reg → Reg → Reg → Instr} {imm : Reg → Reg → Imm → Instr}
    (hreg : ∀ b r o ws, decode (wordOf g b r o :: ws) = .ok (reg b r o, ws))
    (himm : ∀ b r l ws, decode (wordOf (g + 1) b r l :: ws) = withImm l ws (imm b r)) : FormatMDecodes g reg imm :=
  fun b r o rest => ⟨hreg b r o rest, fun ho => (himm b r o rest).trans (withImm_short ho),
    fun e => himm b r 14 (e :: rest), fun e1 e2 => himm b r 15 (e1 :: e2 :: rest)⟩

/-- Settles O43: the words written out are decoded by evaluation, the rest are the equations of the groups. -/
theorem wordsOfTheSpecDecode : Obligations.WordsOfTheSpecDecode :=
  ⟨rfl, rfl, rfl, rfl, rfl, rfl, rfl, rfl, rfl, rfl, rfl, rfl, rfl, rfl, rfl, rfl, rfl, rfl, rfl, rfl,
    formatMDecodes decode_stb decode_stbI, formatMDecodes decode_ld decode_ldI, formatMDecodes decode_st decode_stI,
    decode_jumpl, fun b l e1 e2 rest => decode_group9 b l 15 (e1 :: e2 :: rest),
    fun b d => decode_group9 b d 0, fun b d => decode_group9 b d 1, fun b d => decode_group9 b d 2,
    fun b d => decode_group9 b d 3, fun b d => decode_group9 b d 4, fun b d => decode_group9 b d 5,
    fun b d => decode_group9 b d 6, fun b d => decode_group9 b d 7, fun b d => decode_group9 b d 8,
    fun b d => decode_group9 b d 9, fun b d => decode_group9 b d 10, fun b d => decode_group9 b d 11,
    fun b d => decode_group9 b d 12, fun b d => decode_group9 b d 13,
    fun b d e rest => decode_group9 b d 14 (e :: rest)⟩

end Sys2Proof.Proofs
end

section
/-! SUPPORT. The sixteen conditions by name, and what SKIP and BRANCH leave (40_branch_skip.md rules R100 to R103). -/

namespace Sys2Proof.Machine

open Sys2Proof.Claims

variable {s t : State} {c : Cond}

theorem condHolds_iff (c : Cond) (st : Status) : condHolds c st = true ↔ Condition c st := by
  obtain ⟨test, polarity⟩ := c
  cases test <;> cases polarity <;> simp [condHolds, testHolds, Condition]

/-- The polarity of a condition negates its test. -/
theorem condHolds_false_iff (test : CondTest) (st : Status) :
    condHolds ⟨test, false⟩ st = true ↔ ¬ condHolds ⟨test, true⟩ st = true := by
  simp [condHolds]

theorem condBits_eq_condField (c : Cond) : condBits c = condField c := by
  obtain ⟨test, polarity⟩ := c
  cases test <;> cases polarity <;> rfl

/-- A word of two four-bit fields and an eight-bit one, as SKIP and BRANCH have it. -/
theorem append_eq_wordOf_halves (g f : BitVec 4) (m : BitVec 8) :
    g ++ f ++ m = wordOf g f (m.extractLsb' 4 4) (m.extractLsb' 0 4) := by
  apply BitVec.eq_of_toNat_eq
  have := m.isLt
  rw [toNat_wordOf, toNat_append_eq_add, toNat_append_eq_add, BitVec.extractLsb'_toNat, BitVec.extractLsb'_toNat,
    Nat.shiftRight_eq_div_pow, Nat.shiftRight_zero]
  omega

/-- What an instruction that only moves control leaves: `pc[27:0]` and the skip bits as given, no cascade, and all else
as before. -/
structure ControlLeaves (s : State) (a : CodeAddr) (m : BitVec 8) (t : State) : Prop where
  apart : Apart s t
  regs : KeepsRegs s t
  mem : KeepsMem s t
  pc : t.pc = s.pcTop ++ a
  status : t.status = { s.status with skip := m }
  stack : t.stack = s.stack
  latch : t.cascValid = false
  draws : t.draws = s.draws

theorem keepsRegs_of_status {m : BitVec 8} (hreg : t.regMem = s.regMem)
    (hstatus : t.status = { s.status with skip := m }) (hstack : t.stack = s.stack) : KeepsRegs s t :=
  ⟨State.readReg_congr hreg (by rw [hstatus]) (by rw [hstatus]) (by rw [hstack]),
    fun w => by rw [State.readPhys, State.readPhys, hreg]⟩

theorem keepsMem_of_mem (h : t.mem = s.mem) : KeepsMem s t := fun a => by rw [State.readByte, State.readByte, h]

theorem controlLeaves_setSkip_retire (s : State) (m : BitVec 8) (len : Nat) :
    ControlLeaves s (s.pcAddr + BitVec.ofNat 28 len) m ((s.setSkip m).retire len) := by
  have hstatus : ((s.setSkip m).retire len).status = { s.status with skip := m } := by simp
  have hstack : ((s.setSkip m).retire len).stack = s.stack := by simp
  exact ⟨(((Effect.refl s).setSkip m).retire len).apart, keepsRegs_of_status rfl hstatus hstack, keepsMem_of_mem rfl,
    by simp [State.pcTop, State.pcAddr], hstatus, hstack, rfl, rfl⟩

theorem State.setSkip_skip (s : State) : s.setSkip s.status.skip = s := by
  show { s with tasks := s.tasks.set s.cur s.tasks[s.cur] } = s
  rw [Fin.getElem_fin, Vector.set_getElem_self]

theorem controlLeaves_retire (s : State) (len : Nat) :
    ControlLeaves s (s.pcAddr + BitVec.ofNat 28 len) s.status.skip (s.retire len) := by
  have h := controlLeaves_setSkip_retire s s.status.skip len
  rwa [s.setSkip_skip] at h

theorem controlLeaves_branch (s : State) (a : CodeAddr) :
    ControlLeaves s a 0 (((s.setPcAddr a).setSkip 0).setCasc false) := by
  have hstatus : (((s.setPcAddr a).setSkip 0).setCasc false).status = { s.status with skip := 0 } := by simp
  have hstack : (((s.setPcAddr a).setSkip 0).setCasc false).stack = s.stack := by simp
  exact ⟨((((Effect.refl s).setPc _).setSkip 0).setCasc false).apart, keepsRegs_of_status rfl hstatus hstack,
    keepsMem_of_mem rfl, by simp, hstatus, hstack, rfl, rfl⟩

theorem exec_skip_of_condition (m : BitVec 8) (h : Condition c s.status) :
    exec (.skip c m) s = .next ((s.setSkip (s.status.skip ||| m)).retire 2) := by
  simp only [exec, execSkip, (condHolds_iff _ _).mpr h, if_true]

theorem exec_skip_of_not_condition (m : BitVec 8) (h : ¬ Condition c s.status) :
    exec (.skip c m) s = .next (s.retire 2) := by
  simp only [exec, execSkip, if_neg (mt (condHolds_iff _ _).mp h)]

theorem exec_branch_of_condition (off : BitVec 8) (h : Condition c s.status) :
    exec (.branch c off) s =
      .next (((s.setPcAddr (branchBase s + branchOffset s.cfg.branchScale off)).setSkip 0).setCasc false) := by
  simp only [exec, execBranch, (condHolds_iff _ _).mpr h, if_true]

theorem exec_branch_of_not_condition (off : BitVec 8) (h : ¬ Condition c s.status) :
    exec (.branch c off) s =
      .next ((s.setSkip (if s.cfg.skipClearUntaken then 0 else s.status.skip)).retire 2) := by
  simp only [exec, execBranch, if_neg (mt (condHolds_iff _ _).mp h)]
  split
  · rfl
  · rw [s.setSkip_skip]

/-! ### The target of a BRANCH as a number -/

theorem ControlLeaves.toNat_pc {a : CodeAddr} {m : BitVec 8} (h : ControlLeaves s a m t) :
    t.pc.toNat % 2 ^ 28 = a.toNat ∧ t.pc.toNat / 2 ^ 28 = s.pc.toNat / 2 ^ 28 := by
  have := a.isLt
  rw [h.pc, toNat_append_eq_add, s.toNat_pcTop]
  omega

theorem toNat_branchBase (s : State) :
    ((branchBase s).toNat : Int) = (s.pc.toNat + if s.cfg.pcVisible = .next then 2 else 0) % 2 ^ 28 := by
  unfold branchBase
  cases s.cfg.pcVisible with
  | current => exact congrArg Nat.cast s.toNat_pcAddr
  | next => exact congrArg Nat.cast (s.toNat_pcAddr_add 2)

theorem toNat_signExtend_emod (off : BitVec 8) : ((off.signExtend 28).toNat : Int) = off.toInt % 2 ^ 28 := by
  rw [BitVec.signExtend, BitVec.toNat_ofInt]
  omega

theorem toNat_branchOffset (scale : BranchScale) (off : BitVec 8) :
    ((branchOffset scale off).toNat : Int) = (if scale = .two then 2 else 1) * off.toInt % 2 ^ 28 := by
  have h := toNat_signExtend_emod off
  cases scale with
  | one => simpa [branchOffset] using h
  | two =>
    simp only [branchOffset, BitVec.toNat_add, if_true]
    omega

theorem toNat_branchTarget (s : State) (off : BitVec 8) :
    ((branchBase s + branchOffset s.cfg.branchScale off).toNat : Int) =
      (s.pc.toNat + (if s.cfg.pcVisible = .next then 2 else 0) +
        (if s.cfg.branchScale = .two then 2 else 1) * off.toInt) % 2 ^ 28 := by
  rw [BitVec.toNat_add, Int.natCast_emod, Int.natCast_add, toNat_branchBase, toNat_branchOffset]
  exact (Int.add_emod ..).symm

end Sys2Proof.Machine

namespace Sys2Proof.Proofs

open Sys2Proof.Machine Sys2Proof.Claims

/-- Settles O29: SKIP retires with the skip bits of one of its two branches. -/
theorem skipOrsItsBits : Obligations.SkipOrsItsBits := by
  intro c m s
  refine ⟨fun rest => ?_, ?_⟩
  · rw [append_eq_wordOf_halves, condBits_eq_condField]
    exact decodeOfEncodeIsTheInstruction (.skip c m) rest rfl
  · by_cases h : Condition c s.status
    · have l := controlLeaves_setSkip_retire s (s.status.skip ||| m) 2
      exact ⟨_, exec_skip_of_condition m h, l.apart, l.regs, l.mem, advanced_of_pc l.pc, fun _ => l.status,
        fun hn => absurd h hn, l.stack, l.latch, l.draws⟩
    · have l := controlLeaves_retire s 2
      exact ⟨_, exec_skip_of_not_condition m h, l.apart, l.regs, l.mem, advanced_of_pc l.pc, fun hc => absurd hc h,
        fun _ => l.status, l.stack, l.latch, l.draws⟩

/-- Settles O30: taken, BRANCH goes to its target and clears the skip bits; not taken, it retires. -/
theorem branchAddsItsOffset : Obligations.BranchAddsItsOffset := by
  intro c off s
  refine ⟨fun rest => ?_, ?_⟩
  · rw [append_eq_wordOf_halves, condBits_eq_condField]
    exact decodeOfEncodeIsTheInstruction (.branch c off) rest rfl
  · by_cases h : Condition c s.status
    · have l := controlLeaves_branch s (branchBase s + branchOffset s.cfg.branchScale off)
      obtain ⟨hlow, htop⟩ := l.toNat_pc
      refine ⟨_, exec_branch_of_condition off h, l.apart, l.regs, l.mem, htop, fun _ => ⟨?_, l.status⟩,
        fun hn => absurd h hn, l.stack, l.latch, l.draws⟩
      rw [← toNat_branchTarget, ← hlow]
      rfl
    · have l := controlLeaves_setSkip_retire s (if s.cfg.skipClearUntaken then 0 else s.status.skip) 2
      obtain ⟨hlow, htop⟩ := l.toNat_pc
      exact ⟨_, exec_branch_of_not_condition off h, l.apart, l.regs, l.mem, htop, fun hc => absurd hc h,
        fun _ => ⟨hlow.trans (s.toNat_pcAddr_add 2), l.status⟩, l.stack, l.latch, l.draws⟩

end Sys2Proof.Proofs
end

section
/-! SUPPORT. The subtraction of the MATH group and its flags in arithmetic (41_math_cascade.md rules R120, R122, R130),
and the comparison read from them (rule R136). -/

namespace Sys2Proof.Machine

open Sys2Proof.Claims

/-- `ovf` of an addition with its carry in: the signed sum leaves the range of 32 bits (rule R122). -/
theorem addWithCarry_v (p q : Word) (cin : Bool) : (addWithCarry p q cin).v =
    decide (p.toInt + q.toInt + asNat cin < -2 ^ 31 ∨ 2 ^ 31 ≤ p.toInt + q.toInt + asNat cin) := by
  have hp := p.isLt
  have hq := q.isLt
  have hcin : cin.toNat = asNat cin := by cases cin <;> rfl
  have hc := asNat_lt_two cin
  rw [Bool.eq_iff_iff, decide_eq_true_eq]
  simp only [addWithCarry, ovf, hcin, BitVec.msb_eq_decide, BitVec.toInt_eq_toNat_cond, BitVec.toNat_ofNat,
    Bool.and_eq_true, beq_iff_eq, bne_iff_ne, ne_eq, decide_eq_decide]
  omega

theorem toInt_not_eq_neg (x : Word) : (~~~x).toInt = -1 - x.toInt := by
  have := x.isLt
  rw [BitVec.toInt_eq_toNat_cond, BitVec.toInt_eq_toNat_cond, BitVec.toNat_not]
  omega

/-- SUB in arithmetic: the difference, C when nothing is borrowed, V when the signed difference leaves the range. -/
theorem mathOut_sub (dv sv : Word) (c : Bool) : mathOut .sub dv sv c =
    ⟨dv - sv, decide (sv.toNat ≤ dv.toNat),
      decide (dv.toInt - sv.toInt < -2 ^ 31 ∨ 2 ^ 31 ≤ dv.toInt - sv.toInt)⟩ := by
  have hdv := dv.isLt
  have hsv := sv.isLt
  have hsum : mathOut .sub dv sv c = addWithCarry dv (~~~sv) true := rfl
  have hv : dv.toInt + (-1 - sv.toInt) + ((asNat true : Nat) : Int) = dv.toInt - sv.toInt := by
    show dv.toInt + (-1 - sv.toInt) + 1 = _
    omega
  rw [hsum, ← hv, ← toInt_not_eq_neg, ← addWithCarry_v]
  simp only [addWithCarry, AluOut.mk.injEq, and_true, BitVec.toNat_not, Bool.toNat_true, decide_eq_decide]
  refine ⟨BitVec.eq_of_toNat_eq ?_, ?_⟩
  · rw [BitVec.toNat_ofNat, BitVec.toNat_sub]
    omega
  · omega

/-- N differs from V after a subtraction when the signed difference is negative. -/
theorem msb_sub_ne_overflow_iff (x y : Word) :
    (x - y).msb ≠ decide (x.toInt - y.toInt < -2 ^ 31 ∨ 2 ^ 31 ≤ x.toInt - y.toInt) ↔ x.toInt < y.toInt := by
  have hx := x.isLt
  have hy := y.isLt
  rw [BitVec.msb_eq_decide, ne_eq, decide_eq_decide, BitVec.toNat_sub, BitVec.toInt_eq_toNat_cond,
    BitVec.toInt_eq_toNat_cond]
  omega

/-- The flags of a status that compare `x` with `y`: Z equality, C the unsigned order, N and V together the signed
order. -/
structure Compares (x y : Word) (st : Status) : Prop where
  zero : st.z = true ↔ x = y
  carry : st.c = true ↔ y.toNat ≤ x.toNat
  less : st.n ≠ st.v ↔ x.toInt < y.toInt

section compares
variable {x y : Word} {st : Status} (h : Compares x y st)
include h

theorem condHolds_zero_iff_eq : condHolds ⟨.zero, true⟩ st = true ↔ x = y :=
  (condHolds_iff _ _).trans h.zero

theorem condHolds_less_iff_lt : condHolds ⟨.less, true⟩ st = true ↔ x.toInt < y.toInt :=
  (condHolds_iff _ _).trans h.less

theorem condHolds_lessOrEqual_iff_le : condHolds ⟨.lessOrEqual, true⟩ st = true ↔ x.toInt ≤ y.toInt := by
  have hor : condHolds ⟨.lessOrEqual, true⟩ st = true ↔ x = y ∨ x.toInt < y.toInt :=
    (condHolds_iff _ _).trans (or_congr h.zero h.less)
  rw [hor, ← BitVec.toInt_inj, Int.le_iff_eq_or_lt]

theorem condHolds_lowerOrSame_iff_le : condHolds ⟨.lowerOrSame, true⟩ st = true ↔ x.toNat ≤ y.toNat := by
  have hborrow : st.c = false ↔ x.toNat < y.toNat := by rw [← Bool.not_eq_true, h.carry, Nat.not_le]
  have hor : condHolds ⟨.lowerOrSame, true⟩ st = true ↔ x = y ∨ x.toNat < y.toNat :=
    (condHolds_iff _ _).trans (or_congr h.zero hborrow)
  rw [hor, ← BitVec.toNat_inj, Nat.le_iff_lt_or_eq, or_comm]

end compares

theorem compares_sub (s : State) (k : Bool) (d : Reg) (x y : Word) (c : Bool) (len : Nat) :
    Compares x y (s.aluRetire k d (mathOut .sub x y c) len).status := by
  rw [mathOut_sub, State.aluRetire_status]
  exact ⟨by simp [BitVec.sub_eq_iff_eq_add], by simp, msb_sub_ne_overflow_iff x y⟩

/-- Without an incoming cascade KSUB Ra,Rb subtracts the two registers into the latch. -/
theorem exec_ksub {s : State} (a b : Reg) (h : s.cascValid = false) : exec (.ksub a b) s =
    .next (s.aluRetire true a (mathOut .sub (s.readReg a) (s.readReg b) s.status.c) 2) := by
  simp [exec, execKsub, mathInstr, State.chainRefused, State.destOperand, State.srcValue, srcLen, h]

end Sys2Proof.Machine

namespace Sys2Proof.Proofs

open Sys2Proof.Machine Sys2Proof.Claims

/-- Settles O28: KSUB writes only the latch, and its flags compare the two values. -/
theorem compareThenCondition : Obligations.CompareThenCondition := by
  intro s a b h
  have hreg (n : Reg) (out : AluOut) : (s.aluRetire true a out 2).readReg n = s.readReg n :=
    (s.aluRetire_readReg true a out 2 n).trans (s.readReg_writeReg_fifteen _ n)
  refine ⟨_, exec_ksub a b h, fun n => hreg n _, ?_⟩
  have hcmp := compares_sub s true a (s.readReg a) (s.readReg b) s.status.c 2
  have hlt := condHolds_less_iff_lt hcmp
  have hle := condHolds_lessOrEqual_iff_le hcmp
  have hlow := condHolds_lowerOrSame_iff_le hcmp
  have heq := condHolds_zero_iff_eq hcmp
  simp only [condHolds_false_iff, heq, hlt, hle, hlow, Int.not_lt, Int.not_le, Nat.not_le, ne_eq, and_self]

end Sys2Proof.Proofs
end

section
/-! SUPPORT. What the MATH, SHIFT and LOGIC groups share (41_math_cascade.md rules R120, R131, R132, R137, 30_encoding.md
rules R73, R76): the four encodings of an instruction, and what its common end leaves. -/

namespace Sys2Proof.Machine

open Sys2Proof.Claims

theorem State.srcValue_imm (s : State) (m : Imm) : s.srcValue (.imm m) = immediate s.cfg.imm32Order m :=
  immValue_eq_immediate _ m

theorem srcLen_imm (m : Imm) : srcLen (.imm m) = immBytes m := by cases m <;> rfl

theorem State.chainRefused_plain (s : State) : s.chainRefused false = false := rfl

/-- A cascade form runs where it does not follow a cascade or the launch allows the sequence (rule R134). -/
theorem State.chainRefused_cascade {s : State} (h : s.cascValid = false ∨ s.cfg.cascadeChain = .allow) :
    s.chainRefused true = false := by
  rcases h with h | h <;> simp [State.chainRefused, h]

section aluRetire
variable (s : State) (k : Bool) (d : Reg) (out : AluOut) (len : Nat)

theorem writesReg_aluRetire : WritesReg s (aluTarget k d) out.r (s.aluRetire k d out len) where
  result hn := (s.aluRetire_readReg k d out len _).trans (s.readReg_writeReg_same _ hn)
  word := (s.aluRetire_readPhys k d out len _).trans (readPhys_writePhys_same s _ _)
  otherRegs m hm := (s.aluRetire_readReg k d out len m).trans (s.readReg_writeReg_other _ hm)
  zero := State.readReg_fifteen _
  otherWords w hw := (s.aluRetire_readPhys k d out len w).trans (readPhys_writePhys_other s _ hw)

theorem aluLeaves_aluRetire : AluLeaves s k d len 0 out.r out.c out.v (s.aluRetire k d out len) where
  apart := (Effect.ofAluRetire s k d out len).apart
  plain hk := by subst hk; exact writesReg_aluRetire s false d out len
  cascade hk := by subst hk; exact writesReg_aluRetire s true d out len
  latch := s.aluRetire_cascValid k d out len
  status := by
    have hz : (out.r == 0) = decide (out.r.toNat = 0) := by
      rw [Bool.eq_iff_iff, beq_iff_eq, decide_eq_true_eq]
      exact BitVec.toNat_inj.symm
    rw [s.aluRetire_status, BitVec.msb_eq_decide, hz]
  stack := s.aluRetire_stack k d out len
  pc := advanced_of_pc (s.aluRetire_pc k d out len)
  mem := keepsMem_of_mem (s.aluRetire_mem k d out len)
  draws := s.aluRetire_draws k d out len

end aluRetire

/-- The first byte of an instruction of format A: K adds 0x08, `#` adds 0x10 (rule R73). -/
theorem formsDecode_of_groups {g f : BitVec 4} {regOf : BitVec 4 → Reg → Reg → Instr}
    {immOf : BitVec 4 → Reg → Imm → Instr} (hg : g.getLsbD 0 = false) (hf : f.getLsbD 3 = false)
    (hreg : ∀ f d l ws, decode (wordOf g f d l :: ws) = .ok (regOf f d l, ws))
    (himm : ∀ f d l ws, decode (wordOf (g + 1) f d l :: ws) = withImm l ws (immOf f d)) :
    FormsDecode (g ++ f) (regOf f) (immOf f) (regOf (f + 8)) (immOf (f + 8)) := by
  have hbytes : ∀ g f : BitVec 4, g.getLsbD 0 = false → f.getLsbD 3 = false →
      g ++ f + (0x08 : BitVec 8) = g ++ (f + 8) ∧ g ++ f + (0x10 : BitVec 8) = (g + 1) ++ f ∧
        g ++ f + (0x18 : BitVec 8) = (g + 1) ++ (f + 8) := by
    decide
  obtain ⟨hk, hi, hki⟩ := hbytes g f hg hf
  intro d r rest
  rw [hk, hi, hki]
  exact ⟨hreg f d r rest, hreg (f + 8) d r rest,
    fun hr => ⟨(himm f d r rest).trans (withImm_short hr), (himm (f + 8) d r rest).trans (withImm_short hr)⟩,
    fun e => ⟨himm f d 14 (e :: rest), himm (f + 8) d 14 (e :: rest)⟩,
    fun e1 e2 => ⟨himm f d 15 (e1 :: e2 :: rest), himm (f + 8) d 15 (e1 :: e2 :: rest)⟩⟩

/-- The four forms run one shared operation, which completes wherever the cascade chain is not refused. -/
theorem formsRun_of_shared {regForm : Bool → Reg → Reg → Instr} {immForm : Bool → Reg → Imm → Instr} {drawn : Nat}
    {result : Bool → Word → Word → Word} {cv : State → Word → Word → Bool × Bool}
    {shared : Bool → Reg → Src → State → Result}
    (hreg : ∀ k d r s, exec (regForm k d r) s = shared k d (.reg r) s)
    (himm : ∀ k d m s, exec (immForm k d m) s = shared k d (.imm m) s)
    (hrun : ∀ (s : State) k d src, s.chainRefused k = false → ∃ t, shared k d src s = .next t ∧
      AluLeaves s k d (srcLen src) drawn (result s.status.c (destValue s d) (s.srcValue src))
        (cv s (destValue s d) (s.srcValue src)).1 (cv s (destValue s d) (s.srcValue src)).2 t) :
    FormsRun (regForm false) (immForm false) (regForm true) (immForm true) drawn result cv := by
  intro s d
  have hregs (k r) (hk : s.chainRefused k = false) := hreg k d r s ▸ hrun s k d (.reg r) hk
  have himms (k m) (hk : s.chainRefused k = false) := himm k d m s ▸ hrun s k d (.imm m) hk
  simp only [s.srcValue_imm, srcLen_imm] at himms
  exact ⟨fun r => hregs false r s.chainRefused_plain, fun m => himms false m s.chainRefused_plain,
    fun h => ⟨fun r => hregs true r (State.chainRefused_cascade h), fun m => himms true m (State.chainRefused_cascade h)⟩⟩

end Sys2Proof.Machine
end

section
/-! SUPPORT. The MATH group in arithmetic (41_math_cascade.md rules R120 to R132): its one addition, the eight operations,
and the four forms of each. -/

namespace Sys2Proof.Machine

open Sys2Proof.Claims

/-! ### The one addition -/

/-- The addition from its result, its carry out and its signed range (rules R120, R122). -/
theorem addWithCarry_eq {p q r : Word} {cin c v : Bool}
    (hr : r.toNat = (p.toNat + q.toNat + asNat cin) % 2 ^ 32) (hc : c = true ↔ 2 ^ 32 ≤ p.toNat + q.toNat + asNat cin)
    (hv : v = true ↔ p.toInt + q.toInt + asNat cin < -2 ^ 31 ∨ 2 ^ 31 ≤ p.toInt + q.toInt + asNat cin) :
    addWithCarry p q cin = ⟨r, c, v⟩ := by
  have hcin : cin.toNat = asNat cin := by cases cin <;> rfl
  have hV : (addWithCarry p q cin).v = v := by rw [addWithCarry_v, Bool.eq_iff_iff, hv, decide_eq_true_eq]
  have hC : (addWithCarry p q cin).c = c := by
    rw [Bool.eq_iff_iff, hc, ← hcin]
    exact decide_eq_true_iff
  have hR : (addWithCarry p q cin).r = r := by
    apply BitVec.eq_of_toNat_eq
    rw [hr, ← hcin]
    exact BitVec.toNat_ofNat ..
  rw [← hR, ← hC, ← hV]

/-- The addition without a dest operand: the signed sum can only pass the upper end. -/
theorem addWithCarry_zero_eq {q r : Word} {cin c v : Bool} (hr : r.toNat = (q.toNat + asNat cin) % 2 ^ 32)
    (hc : c = true ↔ 2 ^ 32 ≤ q.toNat + asNat cin) (hv : v = true ↔ q.toNat < 2 ^ 31 ∧ 2 ^ 31 ≤ q.toNat + asNat cin) :
    addWithCarry 0#32 q cin = ⟨r, c, v⟩ := by
  have hq := q.isLt
  have hcin := asNat_lt_two cin
  have hsum : (0#32).toNat + q.toNat + asNat cin = q.toNat + asNat cin := by rw [BitVec.toNat_zero, Nat.zero_add]
  refine addWithCarry_eq (by rw [hsum, hr]) (by rw [hsum, hc]) ?_
  rw [hv, BitVec.toInt_zero, BitVec.toInt_eq_toNat_cond]
  omega

/-- The addition of an inverted source: a subtraction with the borrow `1 - cin`. -/
theorem addWithCarry_not (p q : Word) (cin : Bool) : addWithCarry p (~~~q) cin =
    ⟨BitVec.ofNat 32 (p.toNat + (2 ^ 32 - 1 - q.toNat) + asNat cin), decide (q.toNat + (1 - asNat cin) ≤ p.toNat),
      decide (p.toInt - q.toInt - (1 - (asNat cin : Int)) < -2 ^ 31 ∨
        2 ^ 31 ≤ p.toInt - q.toInt - (1 - (asNat cin : Int)))⟩ := by
  have hq := q.isLt
  have hcin := asNat_lt_two cin
  refine addWithCarry_eq ?_ ?_ ?_
  · rw [BitVec.toNat_ofNat, BitVec.toNat_not]
  · rw [decide_eq_true_eq, BitVec.toNat_not]
    omega
  · rw [decide_eq_true_eq, toInt_not_eq_neg]
    omega

/-! ### The eight operations -/

section operations
variable (dv sv : Word) (c : Bool)

theorem mathOut_mov : mathOut .mov dv sv c = ⟨sv, false, false⟩ := by
  have hs := sv.isLt
  refine addWithCarry_zero_eq (q := sv) (cin := false) ?_ ?_ ?_
  · exact (Nat.mod_eq_of_lt hs).symm
  · exact iff_of_false Bool.false_ne_true (Nat.not_le.mpr hs)
  · exact iff_of_false Bool.false_ne_true (fun h => Nat.not_le.mpr h.1 h.2)

theorem mathOut_inc : mathOut .inc dv sv c =
    ⟨BitVec.ofNat 32 (sv.toNat + 1), decide (sv.toNat = 0xFFFFFFFF), decide (sv.toNat = 0x7FFFFFFF)⟩ := by
  have hs := sv.isLt
  have hone : asNat true = 1 := rfl
  refine addWithCarry_zero_eq (q := sv) (cin := true) ?_ ?_ ?_
  · rw [BitVec.toNat_ofNat, hone]
  · rw [decide_eq_true_eq, hone]
    omega
  · rw [decide_eq_true_eq, hone]
    omega

theorem mathOut_not : mathOut .not dv sv c = ⟨BitVec.ofNat 32 (2 ^ 32 - 1 - sv.toNat), false, false⟩ := by
  have hnot : BitVec.ofNat 32 (2 ^ 32 - 1 - sv.toNat) = ~~~sv := by
    rw [← BitVec.toNat_not, BitVec.ofNat_toNat, BitVec.setWidth_eq]
  rw [hnot]
  exact mathOut_mov dv (~~~sv) c

theorem mathOut_neg : mathOut .neg dv sv c =
    ⟨BitVec.ofNat 32 (2 ^ 32 - sv.toNat), decide (sv.toNat = 0), decide (sv.toNat = 0x80000000)⟩ := by
  have hs := sv.isLt
  have hneg : mathOut .neg dv sv c = mathOut .inc dv (~~~sv) c := rfl
  rw [hneg, mathOut_inc, BitVec.toNat_not, AluOut.mk.injEq, decide_eq_decide, decide_eq_decide]
  refine ⟨congrArg _ ?_, ?_, ?_⟩ <;> omega

theorem mathOut_adc : mathOut .adc dv sv c =
    ⟨BitVec.ofNat 32 (dv.toNat + sv.toNat + asNat c), decide (2 ^ 32 ≤ dv.toNat + sv.toNat + asNat c),
      decide (dv.toInt + sv.toInt + asNat c < -2 ^ 31 ∨ 2 ^ 31 ≤ dv.toInt + sv.toInt + asNat c)⟩ :=
  addWithCarry_eq (BitVec.toNat_ofNat ..) decide_eq_true_iff decide_eq_true_iff

theorem mathOut_add : mathOut .add dv sv c =
    ⟨BitVec.ofNat 32 (dv.toNat + sv.toNat), decide (2 ^ 32 ≤ dv.toNat + sv.toNat),
      decide (dv.toInt + sv.toInt < -2 ^ 31 ∨ 2 ^ 31 ≤ dv.toInt + sv.toInt)⟩ := by
  have hadd : mathOut .add dv sv c = mathOut .adc dv sv false := rfl
  have hzero : asNat false = 0 := rfl
  rw [hadd, mathOut_adc, hzero, Nat.add_zero, Nat.cast_zero, Int.add_zero]

theorem mathOut_sbb : mathOut .sbb dv sv c =
    ⟨BitVec.ofNat 32 (dv.toNat + (2 ^ 32 - 1 - sv.toNat) + asNat c), decide (sv.toNat + (1 - asNat c) ≤ dv.toNat),
      decide (dv.toInt - sv.toInt - (1 - (asNat c : Int)) < -2 ^ 31 ∨
        2 ^ 31 ≤ dv.toInt - sv.toInt - (1 - (asNat c : Int)))⟩ :=
  addWithCarry_not dv sv c

theorem sub_eq_ofNat : dv - sv = BitVec.ofNat 32 (dv.toNat + 2 ^ 32 - sv.toNat) := by
  have hs := sv.isLt
  apply BitVec.eq_of_toNat_eq
  rw [BitVec.toNat_sub, BitVec.toNat_ofNat]
  congr 1
  omega

end operations

/-! ### The four forms -/

/-- A MATH instruction that may run completes with what rule R120 says. -/
theorem mathInstr_leaves (s : State) (op : MathOp) (k : Bool) (d : Reg) (src : Src) (h : s.chainRefused k = false) :
    ∃ t, mathInstr op k d src s = .next t ∧
      AluLeaves s k d (srcLen src) 0 (mathOut op (destValue s d) (s.srcValue src) s.status.c).r
        (mathOut op (destValue s d) (s.srcValue src) s.status.c).c
        (mathOut op (destValue s d) (s.srcValue src) s.status.c).v t := by
  refine ⟨_, ?_, aluLeaves_aluRetire ..⟩
  rw [mathInstr, h]
  rfl

/-- The field K A N C of a MATH instruction (rules R73, R79). -/
def mathField (op : MathOp) (k : Bool) : BitVec 4 :=
  BitVec.ofBool k ++ BitVec.ofBool (mathBitA op) ++ BitVec.ofBool (mathBitN op) ++ BitVec.ofBool (mathBitC op)

theorem exec_mathReg (op : MathOp) (k : Bool) (d r : Reg) (s : State) :
    exec (mathReg (mathField op k) d r) s = mathInstr op k d (.reg r) s := by
  cases op <;> cases k <;> rfl

theorem exec_mathImm (op : MathOp) (k : Bool) (d : Reg) (m : Imm) (s : State) :
    exec (mathImm (mathField op k) d m) s = mathInstr op k d (.imm m) s := by
  cases op <;> cases k <;> rfl

theorem mathField_cascade (op : MathOp) : mathField op false + 8 = mathField op true := by
  cases op <;> rfl

theorem formsDecode_math (op : MathOp) :
    FormsDecode (2#4 ++ mathField op false) (mathReg (mathField op false)) (mathImm (mathField op false))
      (mathReg (mathField op true)) (mathImm (mathField op true)) := by
  have hf : (mathField op false).getLsbD 3 = false := by cases op <;> rfl
  have h := formsDecode_of_groups (g := 2#4) rfl hf decode_math decode_mathI
  rwa [mathField_cascade] at h

theorem formsRun_math (op : MathOp) {result : Bool → Word → Word → Word} {cv : State → Word → Word → Bool × Bool}
    (h : ∀ (s : State) dv sv,
      mathOut op dv sv s.status.c = ⟨result s.status.c dv sv, (cv s dv sv).1, (cv s dv sv).2⟩) :
    FormsRun (mathReg (mathField op false)) (mathImm (mathField op false)) (mathReg (mathField op true))
      (mathImm (mathField op true)) 0 result cv := by
  refine formsRun_of_shared (exec_mathReg op) (exec_mathImm op) fun s k d src hk => ?_
  have hleaves := mathInstr_leaves s op k d src hk
  rwa [h] at hleaves

end Sys2Proof.Machine

namespace Sys2Proof.Proofs

open Sys2Proof.Machine Sys2Proof.Claims

/-- Settles O1: the addition of the source to nothing. -/
theorem movTakesTheSource : Obligations.MovTakesTheSource :=
  ⟨formsDecode_math .mov, formsRun_math .mov fun s dv sv => mathOut_mov dv sv s.status.c⟩

/-- Settles O2: the addition of the source and a carry in of 1. -/
theorem incAddsOneToTheSource : Obligations.IncAddsOneToTheSource :=
  ⟨formsDecode_math .inc, formsRun_math .inc fun s dv sv => mathOut_inc dv sv s.status.c⟩

/-- Settles O3: MOV of the inverted source. -/
theorem notInvertsTheSource : Obligations.NotInvertsTheSource :=
  ⟨formsDecode_math .not, formsRun_math .not fun s dv sv => mathOut_not dv sv s.status.c⟩

/-- Settles O4: INC of the inverted source. -/
theorem negNegatesTheSource : Obligations.NegNegatesTheSource :=
  ⟨formsDecode_math .neg, formsRun_math .neg fun s dv sv => mathOut_neg dv sv s.status.c⟩

/-- Settles O5: ADC with no carry in. -/
theorem addAddsDestAndSource : Obligations.AddAddsDestAndSource :=
  ⟨formsDecode_math .add, formsRun_math .add fun s dv sv => mathOut_add dv sv s.status.c⟩

/-- Settles O6: the addition itself. -/
theorem adcAddsTheCarryToo : Obligations.AdcAddsTheCarryToo :=
  ⟨formsDecode_math .adc, formsRun_math .adc fun s dv sv => mathOut_adc dv sv s.status.c⟩

/-- Settles O7: the addition of the inverted source, a missing carry being the borrow. -/
theorem sbbSubtractsWithBorrow : Obligations.SbbSubtractsWithBorrow :=
  ⟨formsDecode_math .sbb, formsRun_math .sbb fun s dv sv => mathOut_sbb dv sv s.status.c⟩

/-- Settles O8: the addition of the inverted source and a carry in of 1. -/
theorem subSubtractsTheSource : Obligations.SubSubtractsTheSource :=
  ⟨formsDecode_math .sub, formsRun_math .sub fun s dv sv => sub_eq_ofNat dv sv ▸ mathOut_sub dv sv s.status.c⟩

end Sys2Proof.Proofs
end

section
/-! SUPPORT. Cascades (41_math_cascade.md rules R131 to R134): the chain that is refused, the followers that lose the
cascade, and the follower that takes it. -/

namespace Sys2Proof.Machine

open Sys2Proof.Claims

/-! ### Format A from the first word -/

theorem getLsbD_wordOf_11 (a b c d : BitVec 4) : (wordOf a b c d).getLsbD 11 = b.getLsbD 3 := by
  conv_rhs => rw [← nibble_wordOf_2 a b c d]
  simp [nibble]

theorem AluHead.eq_true_of_isCascade {i : Instr} {k : Bool} (h : AluHead i k) (hi : IsCascade i) : k = true := by
  obtain ⟨g, f, n1, n0, rest, he, -, rfl⟩ := h
  obtain ⟨w, rest', he', -, hw⟩ := hi
  obtain ⟨rfl, -⟩ := List.cons.inj (he.symm.trans he')
  rwa [getLsbD_wordOf_11] at hw

theorem OtherHead.not_formatA {i : Instr} (h : OtherHead i) : ¬ FormatA i := by
  rintro ⟨w, rest', he', hw⟩
  obtain ⟨g, f, n1, n0, rest, he, hg⟩ := h
  obtain ⟨rfl, -⟩ := List.cons.inj (he.symm.trans he')
  have hf := f.isLt
  have h1 := n1.isLt
  have h0 := n0.isLt
  rw [toNat_wordOf] at hw
  omega

theorem formatA_of_isCascade {i : Instr} (h : IsCascade i) : FormatA i := by
  obtain ⟨w, rest, he, hw, -⟩ := h
  exact ⟨w, rest, he, hw⟩

/-! ### The followers outside format A -/

section followers
variable (s : State) (c : Bool)

theorem load_setCasc (b r : Reg) (src : Src) : load b r src (s.setCasc c) = load b r src s := rfl
theorem store_setCasc (b r : Reg) (src : Src) : store b r src (s.setCasc c) = store b r src s := rfl
theorem storeByte_setCasc (b r : Reg) (src : Src) : storeByte b r src (s.setCasc c) = storeByte b r src s := rfl
theorem jumpAndLink_setCasc (b l : Reg) (src : Src) : jumpAndLink b l src (s.setCasc c) = jumpAndLink b l src s := rfl
theorem coprocCall_setCasc (code : CoprocCode) (len : Nat) (b d : Reg) :
    coprocCall code len b d (s.setCasc c) = coprocCall code len b d s := rfl
theorem execStk_setCasc (src d : Reg) : execStk src d (s.setCasc c) = execStk src d s := rfl

theorem exec_skip_setCasc (cond : Cond) (m : BitVec 8) : exec (.skip cond m) (s.setCasc c) = exec (.skip cond m) s := by
  by_cases h : Condition cond s.status
  · rw [exec_skip_of_condition m h]
    exact exec_skip_of_condition (s := s.setCasc c) m h
  · rw [exec_skip_of_not_condition m h]
    exact exec_skip_of_not_condition (s := s.setCasc c) m h

theorem exec_branch_setCasc (cond : Cond) (off : BitVec 8) :
    exec (.branch cond off) (s.setCasc c) = exec (.branch cond off) s := by
  by_cases h : Condition cond s.status
  · rw [exec_branch_of_condition off h]
    exact exec_branch_of_condition (s := s.setCasc c) off h
  · rw [exec_branch_of_not_condition off h]
    exact exec_branch_of_not_condition (s := s.setCasc c) off h

end followers

/-- Each instruction has a first word of format A, or it does not read the latch (rule R133). -/
theorem aluHead_or_exec_setCasc (i : Instr) :
    (∃ k, AluHead i k) ∨ ∀ (s : State) (c : Bool), exec i (s.setCasc c) = exec i s :=
  match i with
  | .mov d r | .kmov d r | .inc d r | .kinc d r | .not d r | .knot d r | .neg d r | .kneg d r
  | .add d r | .kadd d r | .adc d r | .kadc d r | .sbb d r | .ksbb d r | .sub d r | .ksub d r
  | .shr d r | .kshr d r | .shl d r | .kshl d r | .asr d r | .kasr d r | .rot d r | .krot d r
  | .div d r | .kdiv d r | .mul d r | .kmul d r | .dvs d r | .kdvs d r | .mls d r | .kmls d r
  | .ior d r | .kior d r | .xor d r | .kxor d r | .nor d r | .knor d r | .eqv d r | .keqv d r
  | .and d r | .kand d r | .ani d r | .kani d r | .nnd d r | .knnd d r | .nai d r | .knai d r =>
    .inl ⟨_, .reg _ _ d r rfl (by decide) rfl⟩
  | .movI d m | .kmovI d m | .incI d m | .kincI d m | .notI d m | .knotI d m | .negI d m | .knegI d m
  | .addI d m | .kaddI d m | .adcI d m | .kadcI d m | .sbbI d m | .ksbbI d m | .subI d m | .ksubI d m
  | .shrI d m | .kshrI d m | .shlI d m | .kshlI d m | .asrI d m | .kasrI d m | .rotI d m | .krotI d m
  | .divI d m | .kdivI d m | .mulI d m | .kmulI d m | .dvsI d m | .kdvsI d m | .mlsI d m | .kmlsI d m
  | .iorI d m | .kiorI d m | .xorI d m | .kxorI d m | .norI d m | .knorI d m | .eqvI d m | .keqvI d m
  | .andI d m | .kandI d m | .aniI d m | .kaniI d m | .nndI d m | .knndI d m | .naiI d m | .knaiI d m =>
    .inl ⟨_, .imm _ _ d m rfl (by decide) rfl⟩
  | .skip cond m => .inr fun s c => exec_skip_setCasc s c cond m
  | .branch cond off => .inr fun s c => exec_branch_setCasc s c cond off
  | .jumpl b l o => .inr fun s c => jumpAndLink_setCasc s c b l (.reg o)
  | .jumplI b l e1 e2 => .inr fun s c => jumpAndLink_setCasc s c b l (.imm (.long e1 e2))
  | .fadd b d | .fsub b d | .fmul b d | .fdiv b d | .tadd b d | .tsub b d | .ext16 b d _ =>
    .inr fun s c => coprocCall_setCasc s c _ _ b d
  | .stk src d => .inr fun s c => execStk_setCasc s c src d
  | .rtn _ _ | .extReserved6 _ _ | .extReserved7 _ _ | .extReserved8 _ _ | .extReserved9 _ _ | .extReservedA _ _
  | .extReservedB _ _ => .inr fun _ _ => rfl
  | .stb b r o => .inr fun s c => storeByte_setCasc s c b r (.reg o)
  | .stbI b r m => .inr fun s c => storeByte_setCasc s c b r (.imm m)
  | .ld b r o => .inr fun s c => load_setCasc s c b r (.reg o)
  | .ldI b r m => .inr fun s c => load_setCasc s c b r (.imm m)
  | .st b r o => .inr fun s c => store_setCasc s c b r (.reg o)
  | .stI b r m => .inr fun s c => store_setCasc s c b r (.imm m)

/-- An instruction outside format A that completes leaves no cascade (rules R28, R133). -/
theorem cascValid_of_not_formatA {i : Instr} {s t : State} (hi : ¬ FormatA i) (h : exec i s = .next t) :
    t.cascValid = false := by
  cases exec_shape i s with
  | math _ _ _ _ _ _ w | shift _ _ _ _ _ _ w | logic _ _ _ _ _ _ w => exact absurd w.formatA hi
  | load _ b r src e _ =>
    obtain ⟨-, -, _, -, rfl⟩ := load_next (e ▸ h)
    rfl
  | store _ b r src e _ _ =>
    obtain ⟨-, -, -, rfl⟩ := store_next (e ▸ h)
    rfl
  | storeByte _ b r src e _ _ =>
    obtain ⟨-, -, rfl⟩ := storeByte_next (e ▸ h)
    rfl
  | jump _ b l src e _ =>
    obtain ⟨-, -, rfl⟩ := jumpAndLink_next (e ▸ h)
    rfl
  | coproc _ code len b d e _ =>
    obtain ⟨-, rfl⟩ := coprocCall_next (e ▸ h)
    rfl
  | skip c m _ =>
    cases h
    rfl
  | branch c off _ =>
    simp only [exec, execBranch] at h
    split at h <;> cases h <;> rfl
  | stk src d _ =>
    obtain ⟨ba, bb, rfl | rfl⟩ := execStk_next h <;> rfl
  | refused _ r e _ => cases e ▸ h

end Sys2Proof.Machine

namespace Sys2Proof.Proofs

open Sys2Proof.Machine Sys2Proof.Claims

/-- Settles O25: a cascade instruction is of format A, and each of its three groups refuses the chain first. -/
theorem cascadeChainIsRefused : Obligations.CascadeChainIsRefused := by
  intro i s hi hvalid hrefuse
  have hchain {k : Bool} (w : AluHead i k) : s.chainRefused k = true := by
    simp [State.chainRefused, w.eq_true_of_isCascade hi, hvalid, hrefuse]
  cases exec_shape i s with
  | math _ op k d src e w => rw [e, mathInstr, if_pos (hchain w), refuse]
  | shift _ op k d src e w => rw [e, shiftInstr, if_pos (hchain w), refuse]
  | logic _ op k d src e w => rw [e, logicInstr, if_pos (hchain w), refuse]
  | load _ _ _ _ _ w | store _ _ _ _ _ w | storeByte _ _ _ _ _ w | jump _ _ _ _ _ w | coproc _ _ _ _ _ _ w
  | skip _ _ w | branch _ _ w | stk _ _ w | refused _ _ _ w => exact absurd (formatA_of_isCascade hi) w.not_formatA

/-- Settles O26: outside format A nothing reads the latch, and every end clears it. -/
theorem incompatibleFollowerLosesTheCascade : Obligations.IncompatibleFollowerLosesTheCascade := by
  intro i s hi
  refine ⟨?_, fun t h => cascValid_of_not_formatA hi h⟩
  rcases aluHead_or_exec_setCasc i with ⟨k, w⟩ | h
  · exact absurd w.formatA hi
  · exact (h s false).symm

/-- Settles O27: KSUB leaves the difference in the latch and the registers alone, so SUB finds the one as its dest operand
and its source among the others. -/
theorem cascadeFeedsTheDestOperand : Obligations.CascadeFeedsTheDestOperand := by
  intro s d1 s1 d2 s2 hvalid
  obtain ⟨t, ht, first⟩ := mathInstr_leaves s .sub true d1 (.reg s1) (State.chainRefused_cascade (.inl hvalid))
  obtain ⟨u, hu, second⟩ := mathInstr_leaves t .sub false d2 (.reg s2) t.chainRefused_plain
  have hlatch := first.cascade rfl
  have hdest := second.plain rfl
  have hreg (n : Reg) : t.readReg n = s.readReg n := by
    by_cases hn : n = 15
    · rw [hn, State.readReg_fifteen, State.readReg_fifteen]
    · exact hlatch.otherRegs n hn
  have hphys : t.phys 15 = s.phys 15 :=
    State.phys_congr (by rw [first.status]) (by rw [first.status]) (by rw [first.stack]) 15
  have hfirst : destValue t d2 = s.readReg d1 - s.readReg s1 := by
    rw [destValue, first.latch, if_pos rfl, hphys, hlatch.word, mathOut_sub, destValue, hvalid]
    rfl
  refine ⟨t, u, ht, hu, first.latch, second.latch, fun hd => ?_, fun n hn => (hdest.otherRegs n hn).trans (hreg n)⟩
  rw [hdest.result hd, mathOut_sub, hfirst, State.srcValue, hreg]

end Sys2Proof.Proofs
end

section
/-! SUPPORT. What the SHIFT and LOGIC groups share: the common end with C and V drawn (42_shift.md rule R159, 43_logic.md
rule R179). -/

namespace Sys2Proof.Machine

open Sys2Proof.Claims

theorem writesReg_bumpDraws {s t : State} {n : Reg} {v : Word} (h : WritesReg s n v t) : WritesReg s n v t.bumpDraws :=
  { h with }

/-- Taking a draw adds one to the draws taken and leaves the rest. -/
theorem aluLeaves_bumpDraws {s t : State} {k : Bool} {d : Reg} {len n : Nat} {r : Word} {c v : Bool}
    (h : AluLeaves s k d len n r c v t) : AluLeaves s k d len (n + 1) r c v t.bumpDraws where
  apart := { h.apart with }
  plain hk := writesReg_bumpDraws (h.plain hk)
  cascade hk := writesReg_bumpDraws (h.cascade hk)
  latch := h.latch
  status := h.status
  stack := h.stack
  pc := h.pc
  mem := h.mem
  draws := congrArg (· + 1) h.draws

theorem aluLeaves_drawFlags (s : State) (k : Bool) (d : Reg) (op : FlagOp) (dv sv r : Word) (len : Nat) :
    AluLeaves s k d len 1 r (Config.flagsCV s.draws op dv sv r).1 (Config.flagsCV s.draws op dv sv r).2
      (s.aluRetire k d (drawFlags s op dv sv r) len).bumpDraws :=
  aluLeaves_bumpDraws (aluLeaves_aluRetire s k d (drawFlags s op dv sv r) len)

end Sys2Proof.Machine
end

section
/-! SUPPORT. The SHIFT group in arithmetic (42_shift.md rules R150 to R160): the eight operations, and the four forms of
each. -/

namespace Sys2Proof.Machine

open Sys2Proof.Claims

/-! ### The eight operations -/

section operations
variable (dv sv : Word)

/-- A shift written in arithmetic for the amounts below 32; above, both sides are open (rule R160). -/
theorem shiftBy_congr {op : ShiftOp} {f g : Word → Nat → Word} (h : ∀ x n, n < 32 → f x n = g x n) :
    shiftBy op f dv sv = shiftBy op g dv sv :=
  ite_congr rfl (h dv sv.toNat) fun _ => rfl

theorem ushiftRight_eq_ofNat_div (x : Word) (n : Nat) : x >>> n = BitVec.ofNat 32 (x.toNat / 2 ^ n) := by
  rw [← Nat.shiftRight_eq_div_pow, ← BitVec.toNat_ushiftRight, BitVec.ofNat_toNat, BitVec.setWidth_eq]

theorem shiftLeft_eq_ofNat_mul (x : Word) (n : Nat) : x <<< n = BitVec.ofNat 32 (x.toNat * 2 ^ n) := by
  apply BitVec.eq_of_toNat_eq
  rw [BitVec.toNat_shiftLeft, Nat.shiftLeft_eq, BitVec.toNat_ofNat]

theorem sshiftRight_eq_ofInt_div (x : Word) (n : Nat) : x.sshiftRight n = BitVec.ofInt 32 (x.toInt / 2 ^ n) := by
  rw [← BitVec.ofInt_toInt (x := x.sshiftRight n), BitVec.toInt_sshiftRight, Int.shiftRight_eq_div_pow, Nat.cast_pow]
  rfl

/-- The bits that leave at the top come in below the shifted ones, so the two parts add up (rule R154). -/
theorem rotateLeft_eq_ofNat_add (x : Word) {n : Nat} (hn : n < 32) :
    x.rotateLeft n = BitVec.ofNat 32 (x.toNat * 2 ^ n % 2 ^ 32 + x.toNat / 2 ^ (32 - n)) := by
  have hpow : 2 ^ 32 = 2 ^ (32 - n) * 2 ^ n := by rw [← Nat.pow_add, Nat.sub_add_cancel hn.le]
  have hlow : x.toNat / 2 ^ (32 - n) < 2 ^ n := Nat.div_lt_of_lt_mul (hpow ▸ x.isLt)
  have hhigh : x.toNat * 2 ^ n % 2 ^ 32 = (x.toNat % 2 ^ (32 - n)) <<< n := by
    rw [hpow, Nat.mul_mod_mul_right, Nat.shiftLeft_eq]
  have hrot : (x.rotateLeft n).toNat = x.toNat * 2 ^ n % 2 ^ 32 + x.toNat / 2 ^ (32 - n) := by
    rw [BitVec.toNat_rotateLeft, Nat.mod_eq_of_lt hn, Nat.shiftLeft_eq, Nat.shiftRight_eq_div_pow, hhigh,
      Nat.shiftLeft_add_eq_or_of_lt hlow]
  rw [← hrot, BitVec.ofNat_toNat, BitVec.setWidth_eq]

theorem shiftResult_shr : shiftResult .shr dv sv = shrValue dv sv :=
  shiftBy_congr dv sv fun x n _ => ushiftRight_eq_ofNat_div x n

theorem shiftResult_shl : shiftResult .shl dv sv = shlValue dv sv :=
  shiftBy_congr dv sv fun x n _ => shiftLeft_eq_ofNat_mul x n

theorem shiftResult_asr : shiftResult .asr dv sv = asrValue dv sv :=
  shiftBy_congr dv sv fun x n _ => sshiftRight_eq_ofInt_div x n

theorem shiftResult_rot : shiftResult .rot dv sv = rotValue dv sv :=
  shiftBy_congr dv sv fun x _ hn => rotateLeft_eq_ofNat_add x hn

theorem shiftResult_div : shiftResult .div dv sv = divValue dv sv :=
  ite_congr (propext BitVec.toNat_inj.symm) (fun _ => rfl) fun _ => BitVec.udiv_def

theorem mul_eq_ofNat_toNat_mul : dv * sv = BitVec.ofNat 32 (dv.toNat * sv.toNat) := by
  rw [BitVec.ofNat_mul, BitVec.ofNat_toNat, BitVec.ofNat_toNat, BitVec.setWidth_eq, BitVec.setWidth_eq]

/-- The low half of the signed product is that of the unsigned one (rule R158). -/
theorem mul_eq_ofInt_toInt_mul : dv * sv = BitVec.ofInt 32 (dv.toInt * sv.toInt) := by
  rw [BitVec.ofInt_mul, BitVec.ofInt_toInt, BitVec.ofInt_toInt]

theorem shiftResult_mul : shiftResult .mul dv sv = mulValue dv sv := mul_eq_ofNat_toNat_mul dv sv

theorem ofInt_tdiv_eq_sdiv : BitVec.ofInt 32 (dv.toInt.tdiv sv.toInt) = dv.sdiv sv := by
  apply BitVec.eq_of_toInt_eq
  rw [BitVec.toInt_ofInt, BitVec.toInt_sdiv]

theorem shiftResult_dvs : shiftResult .dvs dv sv = dvsValue dv sv := by
  have hcorner : (sv = 0 ∨ (dv = 0x80000000 ∧ sv = 0xFFFFFFFF)) =
      (sv.toNat = 0 ∨ (dv.toNat = 0x80000000 ∧ sv.toNat = 0xFFFFFFFF)) := by
    simp only [← BitVec.toNat_inj]
    rfl
  exact ite_congr hcorner (fun _ => rfl) fun _ => ofInt_tdiv_eq_sdiv dv sv

theorem shiftResult_mls : shiftResult .mls dv sv = mlsValue dv sv := mul_eq_ofInt_toInt_mul dv sv

end operations

/-! ### The four forms -/

/-- A SHIFT instruction that may run completes with its result and a draw for C and V (rules R150, R159). -/
theorem shiftInstr_leaves (s : State) (op : ShiftOp) (k : Bool) (d : Reg) (src : Src) (h : s.chainRefused k = false) :
    ∃ t, shiftInstr op k d src s = .next t ∧
      AluLeaves s k d (srcLen src) 1 (shiftResult op (destValue s d) (s.srcValue src))
        (drawn (.shift op) (shiftResult op) s (destValue s d) (s.srcValue src)).1
        (drawn (.shift op) (shiftResult op) s (destValue s d) (s.srcValue src)).2 t := by
  refine ⟨_, ?_, aluLeaves_drawFlags ..⟩
  rw [shiftInstr, h]
  rfl

/-- The bits M S L of a SHIFT operation (rule R79). -/
def shiftCode : ShiftOp → BitVec 3
  | .shr => 0
  | .shl => 1
  | .asr => 2
  | .rot => 3
  | .div => 4
  | .mul => 5
  | .dvs => 6
  | .mls => 7

/-- The field K M S L of a SHIFT instruction (rules R73, R79). -/
def shiftField (op : ShiftOp) (k : Bool) : BitVec 4 := BitVec.ofBool k ++ shiftCode op

theorem exec_shiftReg (op : ShiftOp) (k : Bool) (d r : Reg) (s : State) :
    exec (shiftReg (shiftField op k) d r) s = shiftInstr op k d (.reg r) s := by
  cases op <;> cases k <;> rfl

theorem exec_shiftImm (op : ShiftOp) (k : Bool) (d : Reg) (m : Imm) (s : State) :
    exec (shiftImm (shiftField op k) d m) s = shiftInstr op k d (.imm m) s := by
  cases op <;> cases k <;> rfl

theorem shiftField_cascade (op : ShiftOp) : shiftField op false + 8 = shiftField op true := by
  cases op <;> rfl

theorem formsDecode_shift (op : ShiftOp) :
    FormsDecode (4#4 ++ shiftField op false) (shiftReg (shiftField op false)) (shiftImm (shiftField op false))
      (shiftReg (shiftField op true)) (shiftImm (shiftField op true)) := by
  have hf : (shiftField op false).getLsbD 3 = false := by cases op <;> rfl
  have h := formsDecode_of_groups (g := 4#4) rfl hf decode_shift decode_shiftI
  rwa [shiftField_cascade] at h

theorem formsRun_shift (op : ShiftOp) {value : Word → Word → Word} (h : ∀ dv sv, shiftResult op dv sv = value dv sv) :
    FormsRun (shiftReg (shiftField op false)) (shiftImm (shiftField op false)) (shiftReg (shiftField op true))
      (shiftImm (shiftField op true)) 1 (fun _ => value) (drawn (.shift op) value) := by
  obtain rfl : shiftResult op = value := funext₂ h
  exact formsRun_of_shared (exec_shiftReg op) (exec_shiftImm op) fun s k d src hk => shiftInstr_leaves s op k d src hk

end Sys2Proof.Machine

namespace Sys2Proof.Proofs

open Sys2Proof.Machine Sys2Proof.Claims

/-- Settles O9: the quotient by a power of two. -/
theorem shrShiftsRight : Obligations.ShrShiftsRight :=
  ⟨formsDecode_shift .shr, formsRun_shift .shr shiftResult_shr⟩

/-- Settles O10: the product with a power of two, cut to 32 bits. -/
theorem shlShiftsLeft : Obligations.ShlShiftsLeft :=
  ⟨formsDecode_shift .shl, formsRun_shift .shl shiftResult_shl⟩

/-- Settles O11: the floor of the signed quotient by a power of two. -/
theorem asrShiftsRightSigned : Obligations.AsrShiftsRightSigned :=
  ⟨formsDecode_shift .asr, formsRun_shift .asr shiftResult_asr⟩

/-- Settles O12: a rotation is a left shift and the bits it has pushed out, added. -/
theorem rotRotatesLeft : Obligations.RotRotatesLeft :=
  ⟨formsDecode_shift .rot, formsRun_shift .rot shiftResult_rot⟩

/-- Settles O13: the unsigned quotient, open for the divisor 0. -/
theorem divDividesUnsigned : Obligations.DivDividesUnsigned :=
  ⟨formsDecode_shift .div, formsRun_shift .div shiftResult_div⟩

/-- Settles O14: the product modulo 2^32. -/
theorem mulKeepsTheLowHalf : Obligations.MulKeepsTheLowHalf :=
  ⟨formsDecode_shift .mul, formsRun_shift .mul shiftResult_mul⟩

/-- Settles O15: the quotient truncated toward zero, open in both corners. -/
theorem dvsDividesTowardZero : Obligations.DvsDividesTowardZero :=
  ⟨formsDecode_shift .dvs, formsRun_shift .dvs shiftResult_dvs⟩

/-- Settles O16: the signed product modulo 2^32. -/
theorem mlsKeepsTheLowHalf : Obligations.MlsKeepsTheLowHalf :=
  ⟨formsDecode_shift .mls, formsRun_shift .mls shiftResult_mls⟩

end Sys2Proof.Proofs
end

section
/-! SUPPORT. The LOGIC group bit by bit (43_logic.md rules R170 to R179): the eight operations, and the four forms of
each. -/

namespace Sys2Proof.Machine

open Sys2Proof.Claims

/-! ### The eight operations -/

section operations
variable (dv sv : Word)

theorem logicResult_ior : logicResult .ior dv sv = iorValue dv sv := BitVec.xor_zero.trans (BitVec.or_comm sv dv)

theorem logicResult_xor : logicResult .xor dv sv = xorValue dv sv := BitVec.xor_zero.trans (BitVec.xor_comm sv dv)

theorem logicResult_and : logicResult .and dv sv = andValue dv sv :=
  calc logicResult .and dv sv
    _ = sv &&& (dv ^^^ 0#32) := BitVec.xor_zero
    _ = sv &&& dv := congrArg (sv &&& ·) BitVec.xor_zero
    _ = dv &&& sv := BitVec.and_comm sv dv

theorem logicResult_ani : logicResult .ani dv sv = aniValue dv sv :=
  calc logicResult .ani dv sv
    _ = sv &&& (dv ^^^ BitVec.allOnes 32) := BitVec.xor_zero
    _ = sv &&& ~~~dv := congrArg (sv &&& ·) BitVec.xor_allOnes
    _ = ~~~dv &&& sv := BitVec.and_comm sv (~~~dv)

/-- An operation with N = 1 inverts the result of the one that differs in N alone (rule R170). -/
theorem logicResult_inverted (op inv : LogicOp) (hA : logicBitA inv = logicBitA op) (hM : logicBitM inv = logicBitM op)
    (hop : logicBitN op = false) (hinv : logicBitN inv = true) : logicResult inv dv sv = ~~~logicResult op dv sv := by
  rw [logicResult, logicResult, hA, hM, hop, hinv]
  exact BitVec.xor_allOnes.trans (congrArg (~~~·) BitVec.xor_zero.symm)

theorem logicResult_nor : logicResult .nor dv sv = norValue dv sv := by
  rw [logicResult_inverted dv sv .ior .nor rfl rfl rfl rfl, logicResult_ior, iorValue, norValue]

theorem logicResult_eqv : logicResult .eqv dv sv = eqvValue dv sv := by
  rw [logicResult_inverted dv sv .xor .eqv rfl rfl rfl rfl, logicResult_xor, xorValue, eqvValue]

theorem logicResult_nnd : logicResult .nnd dv sv = nndValue dv sv := by
  rw [logicResult_inverted dv sv .and .nnd rfl rfl rfl rfl, logicResult_and, andValue, nndValue]

theorem logicResult_nai : logicResult .nai dv sv = naiValue dv sv := by
  rw [logicResult_inverted dv sv .ani .nai rfl rfl rfl rfl, logicResult_ani, aniValue, naiValue, BitVec.not_and,
    BitVec.not_not]

end operations

/-! ### The four forms -/

/-- A LOGIC instruction that may run completes with its result and a draw for C and V (rules R170, R179). -/
theorem logicInstr_leaves (s : State) (op : LogicOp) (k : Bool) (d : Reg) (src : Src) (h : s.chainRefused k = false) :
    ∃ t, logicInstr op k d src s = .next t ∧
      AluLeaves s k d (srcLen src) 1 (logicResult op (destValue s d) (s.srcValue src))
        (drawn (.logic op) (logicResult op) s (destValue s d) (s.srcValue src)).1
        (drawn (.logic op) (logicResult op) s (destValue s d) (s.srcValue src)).2 t := by
  refine ⟨_, ?_, aluLeaves_drawFlags ..⟩
  rw [logicInstr, h]
  rfl

/-- The field K A N M of a LOGIC instruction (rules R73, R79). -/
def logicField (op : LogicOp) (k : Bool) : BitVec 4 :=
  BitVec.ofBool k ++ BitVec.ofBool (logicBitA op) ++ BitVec.ofBool (logicBitN op) ++ BitVec.ofBool (logicBitM op)

theorem exec_logicReg (op : LogicOp) (k : Bool) (d r : Reg) (s : State) :
    exec (logicReg (logicField op k) d r) s = logicInstr op k d (.reg r) s := by
  cases op <;> cases k <;> rfl

theorem exec_logicImm (op : LogicOp) (k : Bool) (d : Reg) (m : Imm) (s : State) :
    exec (logicImm (logicField op k) d m) s = logicInstr op k d (.imm m) s := by
  cases op <;> cases k <;> rfl

theorem logicField_cascade (op : LogicOp) : logicField op false + 8 = logicField op true := by
  cases op <;> rfl

theorem formsDecode_logic (op : LogicOp) :
    FormsDecode (6#4 ++ logicField op false) (logicReg (logicField op false)) (logicImm (logicField op false))
      (logicReg (logicField op true)) (logicImm (logicField op true)) := by
  have hf : (logicField op false).getLsbD 3 = false := by cases op <;> rfl
  have h := formsDecode_of_groups (g := 6#4) rfl hf decode_logic decode_logicI
  rwa [logicField_cascade] at h

theorem formsRun_logic (op : LogicOp) {value : Word → Word → Word} (h : ∀ dv sv, logicResult op dv sv = value dv sv) :
    FormsRun (logicReg (logicField op false)) (logicImm (logicField op false)) (logicReg (logicField op true))
      (logicImm (logicField op true)) 1 (fun _ => value) (drawn (.logic op) value) := by
  obtain rfl : logicResult op = value := funext₂ h
  exact formsRun_of_shared (exec_logicReg op) (exec_logicImm op) fun s k d src hk => logicInstr_leaves s op k d src hk

end Sys2Proof.Machine

namespace Sys2Proof.Proofs

open Sys2Proof.Machine Sys2Proof.Claims

/-- Settles O17: the OR as it stands, A, N and M being 0. -/
theorem iorIsInclusiveOr : Obligations.IorIsInclusiveOr :=
  ⟨formsDecode_logic .ior, formsRun_logic .ior logicResult_ior⟩

/-- Settles O18: M = 1 makes the OR an XOR. -/
theorem xorIsExclusiveOr : Obligations.XorIsExclusiveOr :=
  ⟨formsDecode_logic .xor, formsRun_logic .xor logicResult_xor⟩

/-- Settles O19: IOR inverted. -/
theorem norIsNotOr : Obligations.NorIsNotOr :=
  ⟨formsDecode_logic .nor, formsRun_logic .nor logicResult_nor⟩

/-- Settles O20: XOR inverted. -/
theorem eqvIsEquivalence : Obligations.EqvIsEquivalence :=
  ⟨formsDecode_logic .eqv, formsRun_logic .eqv logicResult_eqv⟩

/-- Settles O21: the AND as it stands, N and M being 0. -/
theorem andIsAnd : Obligations.AndIsAnd :=
  ⟨formsDecode_logic .and, formsRun_logic .and logicResult_and⟩

/-- Settles O22: M = 1 makes the AND one with the dest operand inverted. -/
theorem aniInvertsTheDestOperand : Obligations.AniInvertsTheDestOperand :=
  ⟨formsDecode_logic .ani, formsRun_logic .ani logicResult_ani⟩

/-- Settles O23: AND inverted. -/
theorem nndIsNotAnd : Obligations.NndIsNotAnd :=
  ⟨formsDecode_logic .nnd, formsRun_logic .nnd logicResult_nnd⟩

/-- Settles O24: ANI inverted, which takes the inversion off the dest operand and puts it on the source. -/
theorem naiIsDestOrNotSource : Obligations.NaiIsDestOrNotSource :=
  ⟨formsDecode_logic .nai, formsRun_logic .nai logicResult_nai⟩

end Sys2Proof.Proofs
end

section
/-! SUPPORT. LD, ST and STB where their checks pass (44_ld_st_stb.md rules R190 to R193): what their common end leaves,
the four bytes of a word and the shift of a LD in arithmetic (20_memory.md rules R47, R48), and their two forms. -/

namespace Sys2Proof.Machine

open Sys2Proof.Claims

variable {s u : State} {b r : Reg} {src : Src} {a : DataAddr}

/-! ### What they leave -/

/-- An effect that leaves every task's PC, STATUS and STACK alone, followed by the passage to the next instruction. -/
theorem memLeaves_retire (len : Nat) (h : Effect s u) (htasks : u.tasks = s.tasks) (hdraws : u.draws = s.draws) :
    MemLeaves s len (u.retire len) := by
  have hregs : u.regs = s.regs := by simp only [State.regs, htasks, h.cur]
  have hstatus : u.status = s.status := congrArg TaskRegs.status hregs
  have hstack : u.stack = s.stack := congrArg TaskRegs.stack hregs
  have hpc : u.pc = s.pc := congrArg TaskRegs.pc hregs
  exact ⟨(h.retire len).apart, by rw [State.retire_status, hstatus], by rw [State.retire_stack, hstack],
    advanced_of_pc (by rw [State.retire_pc, State.pcTop, State.pcAddr, hpc]; rfl), rfl, hdraws⟩

theorem writesReg_writeReg_retire (s : State) (n : Reg) (v : Word) (len : Nat) :
    WritesReg s n v ((s.writeReg n v).retire len) where
  result hn := by rw [State.readReg_retire, s.readReg_writeReg_same v hn]
  word := readPhys_writePhys_same s _ v
  otherRegs m hm := by rw [State.readReg_retire, s.readReg_writeReg_other v hm]
  zero := State.readReg_fifteen _
  otherWords _ hw := readPhys_writePhys_other s v hw

/-! ### Words and their bytes -/

theorem byteKey_off_add (a : DataAddr) (i : Nat) : byteKey a.obj (a.off.toNat + i) = a.key + i :=
  (Nat.add_assoc ..).symm

theorem toNat_wordOfBytes (o : ByteOrder) (b0 b1 b2 b3 : Byte) :
    (wordOfBytes o b0 b1 b2 b3).toNat = wordNat o b0 b1 b2 b3 := by
  cases o <;> simp only [wordOfBytes, wordNat, toNat_append_eq_add] <;> omega

theorem wordNat_byteOfWord (o : ByteOrder) (v : Word) :
    wordNat o (byteOfWord o v 0) (byteOfWord o v 1) (byteOfWord o v 2) (byteOfWord o v 3) = v.toNat := by
  rw [← toNat_wordOfBytes, wordOfBytes_byteOfWord]

theorem memRead4_of_bytes {b0 b1 b2 b3 : Byte} (h0 : s.readByte (byteKey a.obj a.off.toNat) = some b0)
    (h1 : s.readByte (byteKey a.obj (a.off.toNat + 1)) = some b1)
    (h2 : s.readByte (byteKey a.obj (a.off.toNat + 2)) = some b2)
    (h3 : s.readByte (byteKey a.obj (a.off.toNat + 3)) = some b3) :
    s.memRead4 a = some (wordOfBytes s.cfg.byteOrder b0 b1 b2 b3) := by
  rw [byteKey_off_add] at h1 h2 h3
  simp only [State.memRead4, show s.readByte a.key = some b0 from h0, h1, h2, h3]

/-! ### The shift of a LD -/

theorem DataAddr.toNat_low2 (a : DataAddr) : a.low2.toNat = a.off.toNat % 4 := by
  rw [DataAddr.low2, BitVec.extractLsb'_toNat, Nat.shiftRight_zero]

/-- With `LdFill` at its default zeros enter from above. -/
theorem toNat_loadValue_little_specDefault (k : BitVec 2) (w : Word) :
    (loadValue .little .specDefault k w).toNat = w.toNat / 2 ^ (8 * k.toNat) := by
  simp [loadValue, Nat.shiftRight_eq_div_pow]

/-- Whatever `LdFill` is, it stands above the low `32 - 8k` bits. -/
theorem toNat_loadValue_little_mod (fill : OpenFn) (k : BitVec 2) (w : Word) :
    (loadValue .little fill k w).toNat % 2 ^ (32 - 8 * k.toNat) = w.toNat / 2 ^ (8 * k.toNat) := by
  have hk := k.isLt
  have hlt : w.toNat / 2 ^ (8 * k.toNat) < 2 ^ (32 - 8 * k.toNat) := by
    rw [Nat.div_lt_iff_lt_mul (by positivity), ← pow_add, show 32 - 8 * k.toNat + 8 * k.toNat = 32 by omega]
    exact w.isLt
  cases fill with
  | specDefault => rw [toNat_loadValue_little_specDefault, Nat.mod_eq_of_lt hlt]
  | supplied =>
    have hfill : (Config.ldFillOther k w <<< (32 - 8 * k.toNat)).toNat % 2 ^ (32 - 8 * k.toNat) = 0 := by
      rw [BitVec.toNat_shiftLeft, Nat.shiftLeft_eq, Nat.mod_mod_of_dvd _ (pow_dvd_pow 2 (by omega)), Nat.mul_mod_left]
    have hvalue : loadValue .little .supplied k w =
        (w >>> (8 * k.toNat)) ||| (Config.ldFillOther k w <<< (32 - 8 * k.toNat)) := rfl
    rw [hvalue, BitVec.toNat_or, Nat.or_mod_two_pow, hfill, Nat.or_zero, BitVec.toNat_ushiftRight,
      Nat.shiftRight_eq_div_pow, Nat.mod_eq_of_lt hlt]

/-! ### The shared operations where the checks pass -/

theorem store_of_valid (ha : s.effectiveAddr (s.readReg b) (s.srcValue src) = a)
    (h : s.storeAllowed (s.readReg b) = true) (hl : a.low2 = 0) (hv : validAddr s.cfg.valid a 4 = true) :
    store b r src s = .next ((s.memWrite4 a (s.readReg r)).retire (srcLen src)) := by
  simp only [store, ha, h, hl, hv, ne_eq, not_true_eq_false, Bool.not_true, Bool.false_eq_true, if_false]

theorem storeByte_of_valid (ha : s.effectiveAddr (s.readReg b) (s.srcValue src) = a)
    (h : s.storeAllowed (s.readReg b) = true) (hv : validAddr s.cfg.valid a 1 = true) :
    storeByte b r src s = .next ((s.memWrite1 a ((s.readReg r).extractLsb' 0 8)).retire (srcLen src)) := by
  simp only [storeByte, ha, h, hv, Bool.not_true, Bool.false_eq_true, if_false]

end Sys2Proof.Machine

namespace Sys2Proof.Proofs

open Sys2Proof.Machine Sys2Proof.Claims

variable {s : State} {i : Instr} {b r : Reg} {src : Src}

theorem loadRuns_of_load (h : exec i s = load b r src s) :
    LoadRuns i s r (s.readReg b) (s.srcValue src) (srcLen src) := by
  intro a b0 b1 b2 b3 haddr hown hexist h0 h1 h2 h3
  rw [← a.toNat_aligned_off] at hexist h0 h1 h2 h3
  refine ⟨_, loadValue s.cfg.byteOrder s.cfg.ldFill a.low2 (wordOfBytes s.cfg.byteOrder b0 b1 b2 b3),
    h.trans (load_of_word (effectiveAddr_eq_of_address haddr) (loadAllowed_eq_true hown) (validAddr_iff.mpr hexist)
      (memRead4_of_bytes h0 h1 h2 h3)),
    memLeaves_retire _ (.ofWriteReg ..) rfl rfl, writesReg_writeReg_retire .., fun _ => rfl, fun hlow => ?_,
    fun hlittle => ?_⟩
  · rw [DataAddr.low2_eq_zero_iff.mpr hlow, loadValue_zero, toNat_wordOfBytes]
  · rw [hlittle, ← a.toNat_low2, ← toNat_wordOfBytes]
    exact ⟨toNat_loadValue_little_mod .., fun hfill => hfill ▸ toNat_loadValue_little_specDefault ..⟩

theorem storeRuns_of_store (h : exec i s = store b r src s) :
    StoreRuns i s r (s.readReg b) (s.srcValue src) (srcLen src) := by
  intro a haddr hown hlow hexist
  have hlow2 := DataAddr.low2_eq_zero_iff.mpr hlow
  have hbyte := fun i (hi : i < 4) => readByte_memWrite4_at s a (s.readReg r) hi
  simp only [← byteKey_off_add] at hbyte
  exact ⟨_, _, _, _, _, h.trans (store_of_valid (effectiveAddr_eq_of_address haddr) (storeAllowed_eq_true hown) hlow2
      (validAddr_iff.mpr hexist)),
    memLeaves_retire _ (.ofMemWrite4 _ _ _ hlow2) rfl rfl,
    keepsRegs_of_status (m := s.status.skip) rfl (by simp) (by simp),
    hbyte 0 (by decide), hbyte 1 (by decide), hbyte 2 (by decide), hbyte 3 (by decide), wordNat_byteOfWord ..,
    fun _ hj => readByte_memWrite4_other s a _ hj⟩

theorem storeByteRuns_of_storeByte (h : exec i s = storeByte b r src s) :
    StoreByteRuns i s r (s.readReg b) (s.srcValue src) (srcLen src) := by
  intro a haddr hown hexist
  exact ⟨_, h.trans (storeByte_of_valid (effectiveAddr_eq_of_address haddr) (storeAllowed_eq_true hown)
      (validAddr_iff.mpr hexist)),
    memLeaves_retire _ (.ofMemWrite1 ..) rfl rfl,
    keepsRegs_of_status (m := s.status.skip) rfl (by simp) (by simp),
    readByte_writeByte_same s a.key _, fun _ hj => readByte_writeByte_other s _ hj⟩

/-- Settles O31: both forms are `load`, and the word it reads and shifts is a number divided by a power of 2. -/
theorem loadDeliversTheShiftedWord : Obligations.LoadDeliversTheShiftedWord := by
  intro s b r
  refine ⟨fun o => loadRuns_of_load (src := .reg o) rfl, fun m => ?_⟩
  rw [← s.srcValue_imm, ← srcLen_imm]
  exact loadRuns_of_load (src := .imm m) rfl

/-- Settles O32: both forms are `store`, whose four bytes make the register's word again. -/
theorem storeWritesItsFourBytes : Obligations.StoreWritesItsFourBytes := by
  intro s b r
  refine ⟨fun o => storeRuns_of_store (src := .reg o) rfl, fun m => ?_⟩
  rw [← s.srcValue_imm, ← srcLen_imm]
  exact storeRuns_of_store (src := .imm m) rfl

/-- Settles O33: both forms are `storeByte`, which writes at one key of data memory. -/
theorem storeByteWritesOneByte : Obligations.StoreByteWritesOneByte := by
  intro s b r
  refine ⟨fun o => storeByteRuns_of_storeByte (src := .reg o) rfl, fun m => ?_⟩
  rw [← s.srcValue_imm, ← srcLen_imm]
  exact storeByteRuns_of_storeByte (src := .imm m) rfl

end Sys2Proof.Proofs
end

section
/-! SUPPORT. JUMPL (45_jumpl_send_extended.md rules R210 to R216, R230): its two ends, and the link in arithmetic. -/

namespace Sys2Proof.Machine

open Sys2Proof.Claims

variable {s t : State} {b l : Reg} {src : Src}

theorem jumpAndLink_of_not_objectAddress (hb : ¬ ObjectAddress (s.readReg b)) (ho : ¬ ObjectAddress (s.srcValue src)) :
    jumpAndLink b l src s =
      .next ((((s.writeReg l (linkValue s (srcLen src))).setPc (s.readReg b + s.srcValue src)).setSkip 0).setCasc
        false) := by
  rw [jumpAndLink, if_neg (by simp only [Bool.or_eq_true, isObjRef_iff, hb, ho, or_self, not_false_eq_true])]

theorem jumpAndLink_of_objectAddress (h : ObjectAddress (s.readReg b) ∨ ObjectAddress (s.srcValue src)) :
    jumpAndLink b l src s = .refused .sendUnmodelled := by
  rw [jumpAndLink, if_pos (by simpa only [Bool.or_eq_true, isObjRef_iff] using h), refuse]

theorem linkValue_of_current (len : Nat) (h : s.cfg.pcVisible = .current) : linkValue s len = s.pc := by
  simp only [linkValue, h]

/-- With PC_VISIBLE = next the link is the PC that passing over the instruction would leave. -/
theorem linkValue_of_next (len : Nat) (h : s.cfg.pcVisible = .next) : linkValue s len = (s.advance len).pc := by
  simp only [linkValue, h, State.advance_pc]

/-- A register write followed by changes that leave register memory and the mapping alone. -/
theorem writesReg_of_regMem {n : Reg} {v : Word} (hreg : t.regMem = (s.writeReg n v).regMem)
    (hA : t.status.bankA = s.status.bankA) (hB : t.status.bankB = s.status.bankB)
    (hsp : t.stack.sp = s.stack.sp) : WritesReg s n v t := by
  have hread (m : Reg) : t.readReg m = (s.writeReg n v).readReg m := State.readReg_congr hreg hA hB hsp m
  have hword (w : Nat) : t.readPhys w = (s.writeReg n v).readPhys w := by rw [State.readPhys, State.readPhys, hreg]
  exact {
    result := fun hn => (hread n).trans (s.readReg_writeReg_same v hn)
    word := (hword _).trans (readPhys_writePhys_same s _ v)
    otherRegs := fun m hm => (hread m).trans (s.readReg_writeReg_other v hm)
    zero := State.readReg_fifteen _
    otherWords := fun w hw => (hword w).trans (readPhys_writePhys_other s v hw) }

end Sys2Proof.Machine

namespace Sys2Proof.Proofs

open Sys2Proof.Machine Sys2Proof.Claims

variable {s : State} {i : Instr} {b l : Reg} {src : Src}

theorem jumpRuns_of_jumpAndLink (h : exec i s = jumpAndLink b l src s) :
    JumpRuns i s l (s.readReg b) (s.srcValue src) (srcLen src) := by
  intro hb ho
  exact ⟨_, linkValue s (srcLen src), h.trans (jumpAndLink_of_not_objectAddress hb ho),
    ((((Effect.ofWriteReg ..).setPc _).setSkip 0).setCasc false).apart,
    writesReg_of_regMem rfl (by simp) (by simp) (by simp), keepsMem_of_mem rfl,
    linkValue_of_current _, fun hnext => linkValue_of_next _ hnext ▸ advanced_of_pc (s.advance_pc _),
    by simp [BitVec.toNat_add], by simp, by simp, rfl, rfl⟩

/-- Settles O36: both forms are `jumpAndLink`, which jumps where neither value is an object address. -/
theorem jumplLinksAndJumps : Obligations.JumplLinksAndJumps := by
  intro s b l
  refine ⟨fun o => jumpRuns_of_jumpAndLink (src := .reg o) rfl, fun e1 e2 => ?_⟩
  rw [← s.srcValue_imm]
  exact jumpRuns_of_jumpAndLink (src := .imm (.long e1 e2)) rfl

/-- Settles O37: both forms are `jumpAndLink`, which refuses an object address in either operand. -/
theorem objectOperandMakesASend : Obligations.ObjectOperandMakesASend := by
  intro s b l
  refine ⟨fun o => jumpAndLink_of_objectAddress (src := .reg o), fun e1 e2 => ?_⟩
  rw [← s.srcValue_imm]
  exact jumpAndLink_of_objectAddress (src := .imm (.long e1 e2))

end Sys2Proof.Proofs
end

section
/-! SUPPORT. Extended instructions (45_jumpl_send_extended.md rules R217 to R229): which codes have a meaning, and the two
ends of a coprocessor call. -/

namespace Sys2Proof.Machine

open Sys2Proof.Claims

variable {cfg : Config}

theorem coprocHas_short_iff {c : BitVec 4} : coprocHas cfg (.short c) = true ↔ c ∈ cfg.coproc :=
  List.contains_iff_mem

theorem coprocHas_ext_eq_true {e : Word16}
    (h : cfg.coproc16 = .everyCode ∨ ∃ cs, cfg.coproc16 = .only cs ∧ e ∈ cs) : coprocHas cfg (.ext e) = true := by
  rcases h with h | ⟨cs, h, he⟩
  · simp only [coprocHas, extHas, h]
  · simpa only [coprocHas, extHas, h, List.contains_iff_mem] using he

theorem coprocHas_ext_ne_true {e : Word16}
    (h : cfg.coproc16 = .noCode ∨ ∃ cs, cfg.coproc16 = .only cs ∧ e ∉ cs) : coprocHas cfg (.ext e) ≠ true := by
  rcases h with h | ⟨cs, h, he⟩
  · simp only [coprocHas, extHas, h, ne_eq, Bool.false_eq_true, not_false_eq_true]
  · simpa only [coprocHas, extHas, h, ne_eq, List.contains_iff_mem] using he

end Sys2Proof.Machine

namespace Sys2Proof.Proofs

open Sys2Proof.Machine Sys2Proof.Claims

variable {s : State} {i : Instr} {code : CoprocCode} {b d : Reg} {len : Nat}

theorem coprocRuns_of_coprocCall (h : exec i s = coprocCall code len b d s) (hcode : coprocHas s.cfg code = true) :
    CoprocRuns i s code b d len := by
  have l := memLeaves_retire len
    (.ofWriteReg s d (Config.coprocResult s.draws code (s.readReg b) (s.readReg d))) rfl rfl
  exact ⟨_, h.trans (if_pos hcode), { l.apart with }, writesReg_bumpDraws (writesReg_writeReg_retire ..),
    keepsMem_of_mem rfl, l.status, l.stack, l.pc, l.latch, congrArg (· + 1) l.draws⟩

theorem refused_of_coprocCall (h : exec i s = coprocCall code len b d s) (hcode : coprocHas s.cfg code ≠ true) :
    exec i s = .refused .reservedExtended :=
  h.trans (if_neg hcode)

/-- Settles O38: each instruction is a coprocessor call of its own code. -/
theorem coprocessorResultGoesToDest : Obligations.CoprocessorResultGoesToDest := by
  intro s b d
  have short {i : Instr} {c : BitVec 4} (h : exec i s = coprocCall (.short c) 2 b d s) (hc : c ∈ s.cfg.coproc) :
      CoprocRuns i s (.short c) b d 2 :=
    coprocRuns_of_coprocCall h (coprocHas_short_iff.mpr hc)
  exact ⟨short rfl, short rfl, short rfl, short rfl, short rfl, short rfl,
    fun _ he => coprocRuns_of_coprocCall rfl (coprocHas_ext_eq_true he)⟩

/-- Settles O39: the unassigned codes and RTN are refused outright, the others as calls of a code with no meaning. -/
theorem extendedWithoutMeaningIsRefused : Obligations.ExtendedWithoutMeaningIsRefused := by
  intro s b d
  have short {i : Instr} {c : BitVec 4} (h : exec i s = coprocCall (.short c) 2 b d s) (hc : c ∉ s.cfg.coproc) :
      exec i s = .refused .reservedExtended :=
    refused_of_coprocCall h (mt coprocHas_short_iff.mp hc)
  exact ⟨rfl, rfl, rfl, rfl, rfl, rfl, rfl, short rfl, short rfl, short rfl, short rfl, short rfl, short rfl,
    fun _ he => refused_of_coprocCall rfl (coprocHas_ext_ne_true he)⟩

end Sys2Proof.Proofs
end

section
/-! SUPPORT. STK (45_jumpl_send_extended.md rules R223, R224): the new SP and its block in arithmetic, the slots of the
renamed registers, and each end of the instruction. -/

namespace Sys2Proof.Machine

open Sys2Proof.Claims

variable {s t : State} {src d : Reg}

/-! ### The new SP -/

theorem toNat_stkSp (s : State) (src d : Reg) : (stkSp s.stack.sp src d).toNat = slidSp s src d := by
  have := src.isLt
  have := d.isLt
  simp only [stkSp, slidSp, BitVec.toNat_sub, BitVec.toNat_add, BitVec.toNat_setWidth]
  omega

theorem stkSp_eq_ofNat_slidSp (s : State) (src d : Reg) :
    stkSp s.stack.sp src d = BitVec.ofNat 14 (slidSp s src d) := by
  rw [← toNat_stkSp, BitVec.ofNat_toNat, BitVec.setWidth_eq]

/-- `SP[13:4]` is the block of 16 words that SP is in. -/
theorem extractLsb'_block_eq_iff (x y : BitVec 14) :
    x.extractLsb' 4 10 = y.extractLsb' 4 10 ↔ x.toNat / 16 = y.toNat / 16 := by
  have := x.isLt
  have := y.isLt
  rw [← BitVec.toNat_inj, BitVec.extractLsb'_toNat, BitVec.extractLsb'_toNat, Nat.shiftRight_eq_div_pow,
    Nat.shiftRight_eq_div_pow]
  omega

theorem slidSp_self (s : State) (d : Reg) : slidSp s d d = s.stack.sp.toNat := by
  have := s.stack.sp.isLt
  unfold slidSp
  omega

/-- A STK that leaves the block slides up or down. -/
theorem src_lt_of_across (hblock : slidSp s src d / 16 ≠ s.stack.sp.toNat / 16) (h : ¬ d.toNat < src.toNat) :
    src.toNat < d.toNat := by
  rcases Nat.lt_or_eq_of_le (Nat.not_lt.mp h) with hlt | heq
  · exact hlt
  · rw [BitVec.eq_of_toNat_eq heq, slidSp_self] at hblock
    exact absurd rfl hblock

/-! ### The renaming -/

/-- Within a block a renamed register keeps its slot. -/
theorem renames_within (hsp : t.stack.sp.toNat = slidSp s src d) (hA : t.status.bankA = s.status.bankA)
    (hB : t.status.bankB = s.status.bankB) (hblock : slidSp s src d / 16 = s.stack.sp.toNat / 16) :
    Renames s src d t := by
  intro n m hm
  have hslot : slotOf t.stack.sp n = slotOf s.stack.sp m := by
    have := d.isLt
    rw [slotOf_eq, slotOf_eq, hsp]
    unfold slidSp at hblock ⊢
    omega
  simp only [State.phys, physOf, hslot, hA, hB]

/-- Sliding up into the next block a register that keeps a name goes from BankB down to BankA. -/
theorem renames_up (hsp : t.stack.sp.toNat = slidSp s src d) (hbank : t.status.bankA = s.status.bankB)
    (hblock : slidSp s src d / 16 ≠ s.stack.sp.toNat / 16) (h : d.toNat < src.toNat) : Renames s src d t := by
  intro n m hm
  have hslot : t.stack.sp.toNat % 16 + n.toNat + 16 = s.stack.sp.toNat % 16 + m.toNat := by
    have := src.isLt
    rw [hsp]
    unfold slidSp at hblock ⊢
    omega
  have := m.isLt
  rw [t.phys_of_bankA (by omega), s.phys_of_bankB (by omega), hbank]
  omega

/-- Sliding down into the block below a register that keeps a name goes from BankA up to BankB. -/
theorem renames_down (hsp : t.stack.sp.toNat = slidSp s src d) (hbank : t.status.bankB = s.status.bankA)
    (hblock : slidSp s src d / 16 ≠ s.stack.sp.toNat / 16) (h : src.toNat < d.toNat) : Renames s src d t := by
  intro n m hm
  have hslot : t.stack.sp.toNat % 16 + n.toNat = s.stack.sp.toNat % 16 + m.toNat + 16 := by
    have := d.isLt
    have := s.stack.sp.isLt
    rw [hsp]
    unfold slidSp at hblock ⊢
    omega
  have := n.isLt
  rw [t.phys_of_bankB (by omega), s.phys_of_bankA (by omega), hbank]
  omega

/-! ### The ends of a STK -/

theorem stkLeaves_slide_retire (s : State) (src d : Reg) (bankA bankB : BitVec 10) :
    StkLeaves s src d ((s.slide (stkSp s.stack.sp src d) bankA bankB).retire 2) where
  apart := ((Effect.ofSlide ..).retire 2).apart
  words _ := rfl
  mem := keepsMem_of_mem rfl
  sp := by rw [State.retire_stack, State.slide_stack, toNat_stkSp]
  stack := by rw [State.retire_stack, State.slide_stack]
  pc := advanced_of_pc (by simp [State.pcTop, State.pcAddr])
  latch := rfl

theorem stkLeaves_bumpDraws (h : StkLeaves s src d t) : StkLeaves s src d t.bumpDraws :=
  { h with apart := { h.apart with } }

theorem exec_stk_within (hblock : slidSp s src d / 16 = s.stack.sp.toNat / 16) :
    exec (.stk src d) s = .next ((s.slide (stkSp s.stack.sp src d) s.status.bankA s.status.bankB).retire 2) :=
  if_pos ((extractLsb'_block_eq_iff ..).mpr (by rwa [toNat_stkSp]))

theorem exec_stk_across (hblock : slidSp s src d / 16 ≠ s.stack.sp.toNat / 16) :
    exec (.stk src d) s = stkReload src d s :=
  if_neg (mt (extractLsb'_block_eq_iff ..).mp (by rwa [toNat_stkSp]))

theorem stkReload_of_absent (h : s.cfg.stkReload = .absent) : stkReload src d s = .refused .stkAcrossBlock := by
  simp only [stkReload, h, refuse]

section supplied
variable (h : s.cfg.stkReload = .supplied)
include h

theorem stkReload_of_none
    (hbank : Config.stkReloadBank s.draws s.status.bankA s.status.bankB s.stack.sp (stkSp s.stack.sp src d) = none) :
    stkReload src d s = .fault .noMoreFrames := by
  simp only [stkReload, h, hbank, raise]

variable {bank : BitVec 10}
  (hbank : Config.stkReloadBank s.draws s.status.bankA s.status.bankB s.stack.sp (stkSp s.stack.sp src d) = some bank)
include hbank

theorem stkReload_up (hup : d.toNat < src.toNat) : stkReload src d s =
    .next (((s.slide (stkSp s.stack.sp src d) s.status.bankB bank).retire 2).bumpDraws) := by
  simp only [stkReload, h, hbank, if_pos hup]

theorem stkReload_down (hdown : src.toNat < d.toNat) : stkReload src d s =
    .next (((s.slide (stkSp s.stack.sp src d) bank s.status.bankA).retire 2).bumpDraws) := by
  simp only [stkReload, h, hbank, if_neg (Nat.lt_asymm hdown)]

end supplied

end Sys2Proof.Machine

namespace Sys2Proof.Proofs

open Sys2Proof.Machine Sys2Proof.Claims

/-- Settles O40: the banks stay, so a renamed register keeps its slot, and `d` is the new name of `src`. -/
theorem stkRenamesWithinABlock : Obligations.StkRenamesWithinABlock := by
  intro s src d hblock
  have l := stkLeaves_slide_retire s src d s.status.bankA s.status.bankB
  have hnames := renames_within l.sp (by simp) (by simp) hblock
  refine ⟨_, exec_stk_within hblock, l, by simp, rfl, hnames, fun hsrc hd => ?_⟩
  rw [State.readReg_of_ne_fifteen _ hd, State.readReg_of_ne_fifteen _ hsrc, hnames d src (by omega), l.words]

/-- Settles O41: a slide up and a slide down each force the one bank that still holds named registers. -/
theorem stkAcrossABlock : Obligations.StkAcrossABlock := by
  intro s src d hblock
  rw [exec_stk_across hblock, ← stkSp_eq_ofNat_slidSp]
  refine ⟨stkReload_of_absent, fun hsupplied => ?_⟩
  split
  next hbank => exact stkReload_of_none hsupplied hbank
  next bank hbank =>
    by_cases hup : d.toNat < src.toNat
    · have l := stkLeaves_bumpDraws (stkLeaves_slide_retire s src d s.status.bankB bank)
      exact ⟨_, stkReload_up hsupplied hbank hup, l, rfl, fun _ => by simp, fun h => absurd h (Nat.lt_asymm hup),
        renames_up l.sp (by simp) hblock hup⟩
    · have hdown := src_lt_of_across hblock hup
      have l := stkLeaves_bumpDraws (stkLeaves_slide_retire s src d bank s.status.bankA)
      exact ⟨_, stkReload_down hsupplied hbank hdown, l, rfl, fun h => absurd h hup, fun _ => by simp,
        renames_down l.sp (by simp) hblock hdown⟩

end Sys2Proof.Proofs
end

section
/-! SUPPORT. The choice of the task (60_exceptions.md rules R246 to R249): what the scheduler answers in each of its
cases, and that no run passes a ready software task over for ever. -/

namespace Sys2Proof.Machine

open Sys2Proof.Claims

variable {s t : State} {i : Instr} {k : TaskNo}

/-! ### The cases of the scheduler -/

theorem schedule_of_cascade (h : s.cascValid = true) : s.schedule = some s := if_pos h

theorem schedule_of_hardware (hc : s.cascValid = false) (hk : hardwareTasks.find? s.ready = some k) :
    s.schedule = some { s with cur := k } := by
  simp [State.schedule, hc, hk]

theorem schedule_of_noHardware (hc : s.cascValid = false) (hh : hardwareTasks.find? s.ready = none) :
    s.schedule = (s.earliest s.softwareReady).map s.takeTurn := by
  simp only [State.schedule, hc, hh]
  cases s.earliest s.softwareReady <;> rfl

/-- The hardware tasks stand in order of priority, so the search finds the greatest of those asked for. -/
theorem find?_hardwareTasks_of_greatest {p : TaskNo → Bool} (hk : 8 ≤ k.val) (hp : p k = true)
    (hgreatest : ∀ j, k < j → p j = false) : hardwareTasks.find? p = some k := by
  have hfalling : hardwareTasks.Pairwise (· > ·) := by decide
  obtain ⟨higher, lower, hsplit⟩ := List.append_of_mem ((mem_hardwareTasks k).mpr hk)
  rw [hsplit, List.pairwise_append] at hfalling
  obtain ⟨-, -, habove⟩ := hfalling
  refine List.find?_eq_some_iff_append.mpr ⟨hp, higher, lower, hsplit, fun j hj => ?_⟩
  rw [hgreatest j (habove j hj k (List.mem_cons_self ..))]
  rfl

/-- A ready task is among the software tasks when no hardware task is ready. -/
theorem State.picksSoftware.mem_softwareReady (h : s.picksSoftware) (hk : s.arrive.tasks[k].stack.r = true) :
    k ∈ s.arrive.softwareReady := by
  refine (Machine.mem_softwareReady _ k).mpr ⟨Nat.lt_of_not_le fun h8 => ?_, hk⟩
  rw [h.2 k h8] at hk
  cases hk

/-- A ready software task runs, if there is one (rule R248). -/
theorem State.picksSoftware.schedule_takeTurn (h : s.picksSoftware) (hk : s.arrive.tasks[k].stack.r = true) :
    ∃ c ∈ s.arrive.softwareReady, s.arrive.schedule = some (s.arrive.takeTurn c) := by
  obtain ⟨hc, hh⟩ := (picksSoftware_iff s).mp h
  have hm := h.mem_softwareReady hk
  cases he : s.arrive.earliest s.arrive.softwareReady with
  | none =>
    rw [State.earliest_none he] at hm
    cases hm
  | some c => exact ⟨c, (State.earliest_some he).1, by rw [schedule_of_noHardware hc hh, he, Option.map_some]⟩

/-- With no task ready none runs. -/
theorem State.picksSoftware.schedule_idle (h : s.picksSoftware)
    (hidle : ∀ j : TaskNo, s.arrive.tasks[j].stack.r = false) :
    s.arrive.schedule = none := by
  obtain ⟨hc, hh⟩ := (picksSoftware_iff s).mp h
  have hempty : s.arrive.softwareReady = [] :=
    List.filter_eq_nil_iff.mpr fun j _ => Bool.not_eq_true _ ▸ hidle j
  rw [schedule_of_noHardware hc hh, hempty, State.earliest, Option.map_none]

/-- A step with no task to run only lets the moves arrive (rules R248, R258). -/
theorem step_of_schedule_none (h : s.arrive.schedule = none) : step s = .next s.arrive := by
  simp only [step, State.issue, h]

/-- A turn is taken only when the processor comes to choose among the software tasks: no other choice draws. -/
theorem picksSoftware_of_takeTurn (h : s.arrive.schedule = some (s.arrive.takeTurn k)) : s.picksSoftware := by
  have hdraws : (s.arrive.takeTurn k).draws ≠ s.arrive.draws := Nat.succ_ne_self _
  rcases schedule_cases h with ⟨-, e⟩ | ⟨-, c, -, e⟩ | ⟨hc, hh, -⟩
  · exact absurd (congrArg State.draws e) hdraws
  · exact absurd (congrArg State.draws e) hdraws
  · exact (picksSoftware_iff s).mpr ⟨hc, hh⟩

/-! ### After a cascade instruction -/

/-- A cascade instruction that completes leaves its result in the latch (rules R131, R132). -/
theorem cascValid_of_isCascade (hi : IsCascade i) (h : exec i s = .next t) : t.cascValid = true := by
  cases exec_shape i s with
  | math _ op k d src e w =>
    obtain ⟨-, rfl⟩ := mathInstr_next (e ▸ h)
    simpa using w.eq_true_of_isCascade hi
  | shift _ op k d src e w =>
    obtain ⟨-, rfl⟩ := shiftInstr_next (e ▸ h)
    simpa using w.eq_true_of_isCascade hi
  | logic _ op k d src e w =>
    obtain ⟨-, rfl⟩ := logicInstr_next (e ▸ h)
    simpa using w.eq_true_of_isCascade hi
  | load _ _ _ _ _ w | store _ _ _ _ _ w | storeByte _ _ _ _ _ w | jump _ _ _ _ _ w | coproc _ _ _ _ _ _ w
  | skip _ _ w | branch _ _ w | stk _ _ w | refused _ _ _ w => exact absurd (formatA_of_isCascade hi) w.not_formatA

/-! ### Fairness over a run -/

theorem step_draws_le (h : step s = .next t) : s.draws ≤ t.draws := by
  rcases step_turns h with ⟨-, -, hle⟩ | ⟨-, -, rfl⟩ | ⟨c, -, -, -, -, -, hlt⟩
  · exact hle
  · exact s.arrived.draws.ge
  · exact hlt.le

theorem step_draws_lt (h : step s = .next t) (hp : s.picksSoftware) (hr : s.staysReady k) : s.draws < t.draws := by
  rcases step_turns h with ⟨hn, -, -⟩ | ⟨-, hempty, -⟩ | ⟨c, -, -, -, -, -, hlt⟩
  · exact absurd hp hn
  · have hm := hp.mem_softwareReady hr.1
    rw [hempty] at hm
    cases hm
  · exact hlt

/-- An infinite run that would be unfair to a software task: the task stays ready and the processor comes to choose among
the software tasks again and again, but from step `start` on the task never takes its turn. -/
structure PassedOver (run : Nat → State) (k : TaskNo) (start : Nat) : Prop where
  software : k.val < 8
  steps : ∀ n, step (run n) = .next (run (n + 1))
  ready : ∀ n, (run n).staysReady k
  picks : ∀ n, ∃ m, n ≤ m ∧ (run m).picksSoftware
  never : ∀ n, start ≤ n → (run n).arrive.schedule ≠ some ((run n).arrive.takeTurn k)

namespace PassedOver

variable {run : Nat → State} {start n m d : Nat} (h : PassedOver run k start)
include h

theorem draws_mono : Monotone fun n => (run n).draws :=
  monotone_nat_of_le_succ fun n => step_draws_le (h.steps n)

theorem draws_unbounded (n b : Nat) : ∃ m, n ≤ m ∧ b ≤ (run m).draws := by
  induction b with
  | zero => exact ⟨n, le_rfl, Nat.zero_le _⟩
  | succ b ih =>
    obtain ⟨m, hnm, hb⟩ := ih
    obtain ⟨p, hmp, hp⟩ := h.picks m
    exact ⟨p + 1, by omega, (hb.trans (h.draws_mono hmp)).trans_lt (step_draws_lt (h.steps p) hp (h.ready p))⟩

/-- The task comes to have a turn. -/
theorem exists_turn : ∃ n d, start ≤ n ∧ (run n).turns[k] = some d := by
  obtain ⟨p, hp, hpick⟩ := h.picks start
  obtain ⟨d, hd⟩ := passedOver_draws (h.steps p) h.software hpick (h.ready p) (h.never p hp)
  exact ⟨p + 1, d, Nat.le_succ_of_le hp, hd⟩

/-- Its turn stands. -/
theorem turn_stands (hn : start ≤ n) (hd : (run n).turns[k] = some d) (hm : n ≤ m) : (run m).turns[k] = some d := by
  induction m, hm using Nat.le_induction with
  | base => exact hd
  | succ m hm ih => exact passedOver_holds (h.steps m) (h.ready m) (h.never m (hn.trans hm)) ih

/-- Once the draws have passed a turn, no task comes ahead of it any more. -/
theorem aheadOf_subset (hl : d < (run n).draws) (hm : n ≤ m) : (run m).aheadOf d ⊆ (run n).aheadOf d := by
  induction m, hm using Nat.le_induction with
  | base => exact subset_rfl
  | succ m hm ih => exact (aheadOf_step (h.steps m) (hl.trans_le (h.draws_mono hm))).trans ih

/-- The draws never pass the turn: each time the processor would choose then, a task ahead of it would lose its turn. -/
theorem draws_le_turn (hn : start ≤ n) (hd : (run n).turns[k] = some d) : (run n).draws ≤ d := by
  induction hc : ((run n).aheadOf d).card using Nat.strong_induction_on generalizing n with
  | _ c ih =>
    by_contra hlt
    have hl : d < (run n).draws := Nat.lt_of_not_le hlt
    obtain ⟨p, hnp, hpick⟩ := h.picks n
    have hlp : d < (run p).draws := hl.trans_le (h.draws_mono hnp)
    have hdp := h.turn_stands hn hd hnp
    have hshrinks := (aheadOf_shrinks (h.steps p) h.software hpick (h.ready p) hdp hlp).resolve_left
      (h.never p (hn.trans hnp))
    have hcard := hshrinks.trans_le (Finset.card_le_card (h.aheadOf_subset hl hnp))
    have hnp' : n ≤ p + 1 := Nat.le_succ_of_le hnp
    have hle := ih _ (hc ▸ hcard) (hn.trans hnp') (h.turn_stands hn hd hnp') rfl
    exact absurd (hlp.trans_le (step_draws_le (h.steps p))) hle.not_gt

/-- So no such run exists: the draws grow beyond every turn. -/
theorem absurd_run : False := by
  obtain ⟨n, d, hn, hd⟩ := h.exists_turn
  obtain ⟨m, hnm, hdm⟩ := h.draws_unbounded n (d + 1)
  exact absurd (h.draws_le_turn (hn.trans hnm) (h.turn_stands hn hd hnm)) (Nat.not_le.mpr hdm)

end PassedOver

end Sys2Proof.Machine

namespace Sys2Proof.Proofs

open Sys2Proof.Machine Sys2Proof.Claims

/-- Settles O50: the search from task 15 downwards stops at the highest ready task. -/
theorem highestHardwareTaskRuns : Obligations.HighestHardwareTaskRuns := by
  intro s k hc h8 hk hhigher
  exact schedule_of_hardware (s.arrived.cascValid.trans hc) (find?_hardwareTasks_of_greatest h8 hk hhigher)

/-- Settles O51: the choice and the idle step are cases of the scheduler, and a run unfair to a task would pass its turn
again and again, while the tasks ahead of it run out. -/
theorem softwareTaskOrIdle : Obligations.SoftwareTaskOrIdle := by
  refine ⟨fun s hc hh => ⟨?_, fun hidle => ?_⟩, fun run k hk hsteps hready hpicks n => ?_⟩
  · rintro ⟨j, hj⟩
    obtain ⟨c, hm, hsched⟩ := State.picksSoftware.schedule_takeTurn ⟨hc, hh⟩ hj
    obtain ⟨hc8, hcr⟩ := (mem_softwareReady _ c).mp hm
    exact ⟨c, _, hc8, hcr, hsched, rfl⟩
  · exact step_of_schedule_none (State.picksSoftware.schedule_idle ⟨hc, hh⟩ hidle)
  · by_contra hunfair
    have hnever : ∀ m, n ≤ m → (run m).arrive.schedule ≠ some ((run m).arrive.takeTurn k) := fun m hm hturn =>
      hunfair ⟨m, _, hm, picksSoftware_of_takeTurn hturn, hturn, rfl⟩
    exact PassedOver.absurd_run ⟨hk, hsteps, hready, hpicks, hnever⟩

/-- Settles O52: the moves of R bits leave the latch and the running task, and with the latch set the scheduler keeps
that task. -/
theorem noTaskSwitchAfterACascade : Obligations.NoTaskSwitchAfterACascade := by
  intro s t i hi h
  have hlatch := cascValid_of_isCascade hi h
  have hcur := (exec_effect i h).cur
  refine ⟨hlatch, hcur, fun moves => ?_⟩
  have harrived := ({ t with env := moves } : State).arrived
  exact ⟨_, schedule_of_cascade (harrived.cascValid.trans hlatch), harrived.cur.trans hcur⟩

end Sys2Proof.Proofs
end

section
/-! SUPPORT. The state after reset (10_state.md rule R31, 70_reset_and_hazards.md rule R270): its R bits, its memories and
the moves that wait in it. -/

namespace Sys2Proof.Machine

variable {s : State}

/-- With no move waiting, nothing arrives before the step (rule R246). -/
theorem State.arrive_of_env_nil (h : s.env = []) : s.arrive = s := by
  simp only [State.arrive, h]

/-- Memories that list nothing meet the invariant. -/
theorem State.inv_of_memories_nil (hm : s.mem = []) (hr : s.regMem = []) (hi : s.imem = []) : s.Inv := by
  unfold State.Inv
  rw [hm, hr, hi]
  decide

/-- The R bits at reset: that of task 15 and no other (rule R270). -/
theorem State.reset_ready (k : TaskNo) : State.reset.tasks[k].stack.r = decide (k = 15) := by
  by_cases hk : k = 15
  · subst hk
    rfl
  · have hne : 15 ≠ k.val := fun h => hk (Fin.ext h.symm)
    simp [State.reset, Stack.reset, hk, Vector.getElem_set_ne, hne]

end Sys2Proof.Machine

namespace Sys2Proof.Proofs

open Sys2Proof.Machine Sys2Proof.Claims

/-- Settles O54: the R bits at reset are read off its vector of tasks, its memories list nothing, and with no move
waiting task 15, which none is above, is the highest ready hardware task. -/
theorem resetLeavesTaskFifteenReady : Obligations.ResetLeavesTaskFifteenReady := by
  have hready : State.reset.tasks[(15 : TaskNo)].stack.r = true := State.reset_ready 15
  have harrive : State.reset.arrive = State.reset := State.arrive_of_env_nil rfl
  have hruns := highestHardwareTaskRuns State.reset 15 rfl (by decide) (harrive.symm ▸ hready)
    fun j hj => absurd hj (Fin.le_last j).not_gt
  refine ⟨State.inv_of_memories_nil rfl rfl rfl, hready, fun k hk => ?_, _, hruns, rfl⟩
  rw [State.reset_ready, decide_eq_false hk]

end Sys2Proof.Proofs
end
